-- ==== Sys2Proof/Word.lean ====
section
/-! DEFINITION. The word types of PCFG (spec/00_scope.md R5 to R8, R11; spec/10_state.md R24, R29, R30). Every value is an
unsigned bit vector of the stated width. -/

namespace Sys2Proof

/-- A 32-bit word: a command word, an operand, an address key, the data of a configuration access (R5, R6, R16). -/
abbrev Word := BitVec 32

/-- A 64-bit value: R_BAR_ADDR and R_BAR_SIZE (R29, R30). -/
abbrev Long := BitVec 64

/-- A byte offset into a function's configuration space: the width of OFF_L (R24). -/
abbrev Off := BitVec 12

/-- The word with every bit set: what a probe writes (spec/43_bar_probe.md R137). -/
def allOnes : Word := 0xFFFFFFFF#32

end Sys2Proof
end

