-- ==== Sys2Proof/Syntax.lean ====
section
/-! DEFINITION. The commands of PCFG: one constructor per row of spec/opcode_table.json (spec/30_encoding.md R73). Fields of the
command word are the numbers R71 reads from it; the operands opa and opb are not part of the word (R70, R72). -/

namespace Sys2Proof

/-- A command of PCFG (R73). A constructor's comment gives its mnemonic, its rule and what it computes. -/
inductive Instr where
  /-- ADDR_ENCODE (R83): construct a key from segment, bus, device, function. -/
  | addrEncode
  /-- ADDR_SEGMENT (R84): the segment of a key. -/
  | addrSegment
  /-- ADDR_BUS (R85): the bus of a key. -/
  | addrBus
  /-- ADDR_DEVICE (R86): the device of a key. -/
  | addrDevice
  /-- ADDR_FUNCTION (R87): the function of a key. -/
  | addrFunction
  /-- ADV_FUNCTION (R89): the next function. -/
  | advFunction
  /-- ADV_DEVICE (R90): function 0 of the next device. -/
  | advDevice
  /-- ADV_BUS (R91): device 0, function 0 of the next bus. -/
  | advBus
  /-- ADV_SEGMENT (R92): bus 0, device 0, function 0 of the next segment. -/
  | advSegment
  /-- BITS32 (R95): bits hi:lo of a 32-bit word (fields HI 28:24 and LO 20:16). -/
  | bits32 (hi lo : Nat)
  /-- BITS16 (R96): bits hi:lo of a 16-bit word (fields HI 28:24 and LO 20:16). -/
  | bits16 (hi lo : Nat)
  /-- F_VENDOR_ID (R97). -/
  | fVendorId
  /-- F_DEVICE_ID (R98). -/
  | fDeviceId
  /-- F_COMMAND (R99). -/
  | fCommand
  /-- F_STATUS (R100). -/
  | fStatus
  /-- F_REVISION (R101). -/
  | fRevision
  /-- F_PROG_IF (R102). -/
  | fProgIf
  /-- F_SUBCLASS (R103). -/
  | fSubclass
  /-- F_BASECLASS (R104). -/
  | fBaseclass
  /-- F_CACHELINE (R105). -/
  | fCacheline
  /-- F_LATENCY (R106). -/
  | fLatency
  /-- F_HEADER_TYPE (R108). -/
  | fHeaderType
  /-- F_MULTIFUNCTION (R109). -/
  | fMultifunction
  /-- F_BIST (R110). -/
  | fBist
  /-- F_CAP_PTR (R111). -/
  | fCapPtr
  /-- S_INT_STATUS (R113). -/
  | sIntStatus
  /-- S_CAP_LIST (R114). -/
  | sCapList
  /-- S_66MHZ (R115). -/
  | s66mhz
  /-- S_FAST_B2B (R116). -/
  | sFastB2b
  /-- S_MASTER_DPE (R117). -/
  | sMasterDpe
  /-- S_DEVSEL (R118). -/
  | sDevsel
  /-- S_SIG_TABORT (R119). -/
  | sSigTabort
  /-- S_RCV_TABORT (R120). -/
  | sRcvTabort
  /-- S_RCV_MABORT (R121). -/
  | sRcvMabort
  /-- S_SIG_SERR (R122). -/
  | sSigSerr
  /-- S_DET_PERR (R123). -/
  | sDetPerr
  /-- CFG_IDENTITY (R125). -/
  | cfgIdentity
  /-- CFG_STATUS (R126). -/
  | cfgStatus
  /-- CFG_REV_CLASS (R127). -/
  | cfgRevClass
  /-- CFG_HEADER_TYPE (R128). -/
  | cfgHeaderType
  /-- CFG_MULTIFUNCTION (R129). -/
  | cfgMultifunction
  /-- CFG_ENDPOINT (R130). -/
  | cfgEndpoint
  /-- CFG_CAP_POINTER (R131). -/
  | cfgCapPointer
  /-- BAR_PROBE (R133): resolve a Base Address Register (field SLOT 10:8). -/
  | barProbe (slot : Nat)
deriving DecidableEq, Repr

end Sys2Proof
end

