-- ==== Sys2Proof/WellFormed.lean ====
section
/-! DEFINITION. Which commands have a command word: the fields fit their places (spec/30_encoding.md R68, R71). A value the
document does not allow in a used field (SLOT 6 and 7, HI below LO) is well formed: it is an operand check of its command (R75). -/

namespace Sys2Proof

/-- The fields of a command fit the widths of R68: SLOT 3 bits, LO and HI 5 bits each. -/
def Instr.wellFormed : Instr → Bool
  | .bits32 hi lo => decide (hi < 32) && decide (lo < 32)
  | .bits16 hi lo => decide (hi < 32) && decide (lo < 32)
  | .barProbe slot => decide (slot < 8)
  | .addrEncode | .addrSegment | .addrBus | .addrDevice | .addrFunction | .advFunction | .advDevice | .advBus
  | .advSegment | .fVendorId | .fDeviceId | .fCommand | .fStatus | .fRevision | .fProgIf | .fSubclass | .fBaseclass
  | .fCacheline | .fLatency | .fHeaderType | .fMultifunction | .fBist | .fCapPtr | .sIntStatus | .sCapList | .s66mhz
  | .sFastB2b | .sMasterDpe | .sDevsel | .sSigTabort | .sRcvTabort | .sRcvMabort | .sSigSerr | .sDetPerr
  | .cfgIdentity | .cfgStatus | .cfgRevClass | .cfgHeaderType | .cfgMultifunction | .cfgEndpoint | .cfgCapPointer => true

end Sys2Proof
end

