-- ==== Sys2Proof/Decode.lean ====
section
/-! DEFINITION. Decoding a command word by the match and mask of its opcode-map row (spec/30_encoding.md R69, R73, R74), total on
every word and rejecting by name, and after it the encoder, written from the field places of R68. -/

namespace Sys2Proof

/-- Why a word is an illegal command: the two kinds R74 lists. -/
inductive Illegal where
  /-- No row has this OPC. Raised by `decode`; the step then completes with ILLEGAL_COMMAND (R154). -/
  | unlistedOpcode (opc : Nat)
  /-- A listed OPC with a nonzero bit in a reserved or an unused field. Raised by `decode`; likewise ILLEGAL_COMMAND. -/
  | nonzeroReserved (opc : Nat)
deriving DecidableEq, Repr

/-- OPC, bits 7:0 of a command word (R68). -/
def opcField (w : Word) : Nat := (w.extractLsb' 0 8).toNat

/-- SLOT, bits 10:8 (R68, R71). -/
def slotField (w : Word) : Nat := (w.extractLsb' 8 3).toNat

/-- LO, bits 20:16 (R68, R71). -/
def loField (w : Word) : Nat := (w.extractLsb' 16 5).toNat

/-- HI, bits 28:24 (R68, R71). -/
def hiField (w : Word) : Nat := (w.extractLsb' 24 5).toNat

/-- A row of the opcode map: a word selects it when `word &&& mask = pattern`, and `build` reads the command with its fields (R69). -/
structure OpcodeRow where
  pattern : Word
  mask : Word
  build : Word → Instr

/-- A row without fields: its mask has every bit (R69). -/
def plainRow (w : Word) (i : Instr) : OpcodeRow := ⟨w, 0xFFFFFFFF#32, fun _ => i⟩

/-- The rows of the address unit (R73). -/
def addressRows : List OpcodeRow :=
  [plainRow 0x10#32 .addrEncode,
   plainRow 0x11#32 .addrSegment,
   plainRow 0x12#32 .addrBus,
   plainRow 0x13#32 .addrDevice,
   plainRow 0x14#32 .addrFunction,
   plainRow 0x18#32 .advFunction,
   plainRow 0x19#32 .advDevice,
   plainRow 0x1A#32 .advBus,
   plainRow 0x1B#32 .advSegment]

/-- The rows of the field extractor (R73). -/
def extractorRows : List OpcodeRow :=
  [⟨0x20#32, 0xE0E0FFFF#32, fun w => .bits32 (hiField w) (loField w)⟩,
   ⟨0x21#32, 0xE0E0FFFF#32, fun w => .bits16 (hiField w) (loField w)⟩,
   plainRow 0x30#32 .fVendorId,
   plainRow 0x31#32 .fDeviceId,
   plainRow 0x32#32 .fCommand,
   plainRow 0x33#32 .fStatus,
   plainRow 0x34#32 .fRevision,
   plainRow 0x35#32 .fProgIf,
   plainRow 0x36#32 .fSubclass,
   plainRow 0x37#32 .fBaseclass,
   plainRow 0x38#32 .fCacheline,
   plainRow 0x39#32 .fLatency,
   plainRow 0x3A#32 .fHeaderType,
   plainRow 0x3B#32 .fMultifunction,
   plainRow 0x3C#32 .fBist,
   plainRow 0x3D#32 .fCapPtr,
   plainRow 0x40#32 .sIntStatus,
   plainRow 0x41#32 .sCapList,
   plainRow 0x42#32 .s66mhz,
   plainRow 0x43#32 .sFastB2b,
   plainRow 0x44#32 .sMasterDpe,
   plainRow 0x45#32 .sDevsel,
   plainRow 0x46#32 .sSigTabort,
   plainRow 0x47#32 .sRcvTabort,
   plainRow 0x48#32 .sRcvMabort,
   plainRow 0x49#32 .sSigSerr,
   plainRow 0x4A#32 .sDetPerr]

/-- The rows of the header reader (R73). -/
def headerRows : List OpcodeRow :=
  [plainRow 0x50#32 .cfgIdentity,
   plainRow 0x51#32 .cfgStatus,
   plainRow 0x52#32 .cfgRevClass,
   plainRow 0x53#32 .cfgHeaderType,
   plainRow 0x54#32 .cfgMultifunction,
   plainRow 0x55#32 .cfgEndpoint,
   plainRow 0x56#32 .cfgCapPointer]

/-- The row of the BAR probe unit (R73). -/
def barRows : List OpcodeRow :=
  [⟨0x60#32, 0xFFFFF8FF#32, fun w => .barProbe (slotField w)⟩]

/-- The opcode map, in the order of R73. -/
def opcodeRows : List OpcodeRow := addressRows ++ extractorRows ++ headerRows ++ barRows

/-- Whether a word selects a row (R69). -/
def OpcodeRow.selects (r : OpcodeRow) (w : Word) : Bool := w &&& r.mask == r.pattern

/-- Which kind of illegal word this is (R74); asked only of a word that selects no row. -/
def illegalKind (w : Word) : Illegal :=
  if opcodeRows.any (fun r => opcField r.pattern == opcField w) then .nonzeroReserved (opcField w)
  else .unlistedOpcode (opcField w)

/-- The command a word means, or why it is illegal (R69, R74). One word is one command (R70). -/
def decode (w : Word) : Except Illegal Instr :=
  match opcodeRows.find? (fun r => r.selects w) with
  | some r => .ok (r.build w)
  | none => .error (illegalKind w)

/-- The word whose bits are `w` as spec/opcode_table.json numbers them, cut to `nbits`, through `decode`. Every row has 32 bits, and
the operands opa and opb are no part of the word (R70). -/
def decodeTableWord (nbits w : Nat) : Option Instr :=
  (decode (BitVec.ofNat 32 (w % 2 ^ nbits))).toOption

/-- OPC of a command (R73). -/
def Instr.opc : Instr → Word
  | .addrEncode => 0x10#32
  | .addrSegment => 0x11#32
  | .addrBus => 0x12#32
  | .addrDevice => 0x13#32
  | .addrFunction => 0x14#32
  | .advFunction => 0x18#32
  | .advDevice => 0x19#32
  | .advBus => 0x1A#32
  | .advSegment => 0x1B#32
  | .bits32 _ _ => 0x20#32
  | .bits16 _ _ => 0x21#32
  | .fVendorId => 0x30#32
  | .fDeviceId => 0x31#32
  | .fCommand => 0x32#32
  | .fStatus => 0x33#32
  | .fRevision => 0x34#32
  | .fProgIf => 0x35#32
  | .fSubclass => 0x36#32
  | .fBaseclass => 0x37#32
  | .fCacheline => 0x38#32
  | .fLatency => 0x39#32
  | .fHeaderType => 0x3A#32
  | .fMultifunction => 0x3B#32
  | .fBist => 0x3C#32
  | .fCapPtr => 0x3D#32
  | .sIntStatus => 0x40#32
  | .sCapList => 0x41#32
  | .s66mhz => 0x42#32
  | .sFastB2b => 0x43#32
  | .sMasterDpe => 0x44#32
  | .sDevsel => 0x45#32
  | .sSigTabort => 0x46#32
  | .sRcvTabort => 0x47#32
  | .sRcvMabort => 0x48#32
  | .sSigSerr => 0x49#32
  | .sDetPerr => 0x4A#32
  | .cfgIdentity => 0x50#32
  | .cfgStatus => 0x51#32
  | .cfgRevClass => 0x52#32
  | .cfgHeaderType => 0x53#32
  | .cfgMultifunction => 0x54#32
  | .cfgEndpoint => 0x55#32
  | .cfgCapPointer => 0x56#32
  | .barProbe _ => 0x60#32

/-- The field bits of a command, each in its place of R68: SLOT at 8, LO at 16, HI at 24. -/
def Instr.fieldBits : Instr → Word
  | .bits32 hi lo => BitVec.ofNat 32 lo <<< 16 ||| BitVec.ofNat 32 hi <<< 24
  | .bits16 hi lo => BitVec.ofNat 32 lo <<< 16 ||| BitVec.ofNat 32 hi <<< 24
  | .barProbe slot => BitVec.ofNat 32 slot <<< 8
  | .addrEncode | .addrSegment | .addrBus | .addrDevice | .addrFunction | .advFunction | .advDevice | .advBus
  | .advSegment | .fVendorId | .fDeviceId | .fCommand | .fStatus | .fRevision | .fProgIf | .fSubclass | .fBaseclass
  | .fCacheline | .fLatency | .fHeaderType | .fMultifunction | .fBist | .fCapPtr | .sIntStatus | .sCapList | .s66mhz
  | .sFastB2b | .sMasterDpe | .sDevsel | .sSigTabort | .sRcvTabort | .sRcvMabort | .sSigSerr | .sDetPerr
  | .cfgIdentity | .cfgStatus | .cfgRevClass | .cfgHeaderType | .cfgMultifunction | .cfgEndpoint | .cfgCapPointer => 0#32

/-- The command word of a well-formed command (R68): every unused field is 0. -/
def encode (i : Instr) : Word := i.opc ||| i.fieldBits

end Sys2Proof
end

