-- ==== Sys2Proof/Config.lean ====
section
/-! DEFINITION. What an implementation fixes: the one parameter CFG_SPACE_BYTES (spec/00_scope.md R6, R9;
spec/92_eei_decisions.md D28). The model's other parameter, the collaborator (R49), is not here: its answers are inputs
held in State. -/

namespace Sys2Proof.Config

/-- Whether a function's configuration space is the extended one. No body: nothing can be proved of its value (R6: OPEN). -/
opaque extendedSpace : Bool

/-- CFG_SPACE_BYTES, "which is 256 or 4096" (R6). -/
def cfgSpaceBytes : Nat := if extendedSpace then 4096 else 256

end Sys2Proof.Config
end

