-- ==== Sys2Proof/Machine/State.lean ====
section
/-! DEFINITION. The state of PCFG as plain data (spec/10_state.md R21 to R31), the configuration port (spec/20_memory.md R46), the
input signals of the steps (spec/30_encoding.md R67, spec/70_reset_and_hazards.md R169) and the trace (R50); the reasons a run
stops; the state right after reset (R43). An `Option` register's `none` is the spec's own value ⊥ (spec/00_scope.md R15). -/

namespace Sys2Proof.Machine

/-- The states of the command sequencer (R23). The numeric encoding is not observable, so there is none here. -/
inductive Fsm where
  | idle
  /-- HDR_RD0: the first read of a header command (R124). -/
  | hdrRd0
  /-- HDR_RD1: the second read of CFG_CAP_POINTER (R131). -/
  | hdrRd1
  /-- BAR_RAW_RD: the raw read of a probe (R134). -/
  | barRawRd
  /-- BAR_ONES_WR: the all-ones write (R137). -/
  | barOnesWr
  /-- BAR_BACK_RD: the read-back (R138). -/
  | barBackRd
  /-- BAR_RESTORE_WR: the restoring write (R139). -/
  | barRestoreWr
  /-- BAR_UPPER_RD: the upper-half read of a 64-bit BAR (R143). -/
  | barUpperRd
deriving DecidableEq, Repr

/-- A configuration transaction as PCFG presents it on the port: kind, key, offset, and the data of a write (R13, R46). -/
inductive Transaction where
  | read (key : Word) (off : Off)
  | write (key : Word) (off : Off) (value : Word)
deriving DecidableEq, Repr

/-- What happens on the configuration port, as the history records it (R50, R61). -/
inductive Event where
  /-- PCFG issues a transaction. -/
  | issued (t : Transaction)
  /-- The outstanding read completes with 32 bits of data (R46, R48). -/
  | readDone (v : Word)
  /-- The outstanding write is acknowledged (R46). -/
  | writeDone
deriving DecidableEq, Repr

/-- A completion the collaborator gives: which transaction it completes, counted from 0 in issue order, and the data of a
read (R46, R48); a write's acknowledgement carries no data, so PCFG never looks at `data` then. -/
structure Completion where
  number : Nat
  data : Word
deriving DecidableEq, Repr

/-- The registers the host can read (R22, R25 to R31). -/
inductive HostReg where
  | busy
  | outcome
  | err
  | val0
  | val1
  | val2
  | val3
  | barKind
  | barAddr
  | barSize
  | barPf
deriving DecidableEq, Repr

/-- The input signals of one step: reset (R169), the command port (R67), the collaborator's completion (R46), the host's read of
a register (R20, R182). -/
structure Pins where
  rst : Bool
  cmdValid : Bool
  cmd : Word
  opa : Word
  opb : Word
  done : Option Completion
  read : Option HostReg
deriving DecidableEq, Repr

/-- No reset, no command, no completion, no read. -/
def Pins.quiet : Pins :=
  { rst := false, cmdValid := false, cmd := 0#32, opa := 0#32, opb := 0#32, done := none, read := none }

/-- The latches of R24. -/
inductive Latch where
  | cmd
  | key
  | off
  | raw
  | back
deriving DecidableEq, Repr

/-- Why a run stops. No command of PCFG halts it (spec/60_exceptions.md R153): each of these stands for the host, for the
collaborator, or for a state that no run reaches. -/
inductive Fault where
  /-- The host reads a register that holds ⊥: "a fault of the reading program in the model, not a value" (R15). Raised by
  `State.serveRead`. Safe: the model stops where a block might show a stale value. -/
  | readOfBottom (r : HostReg)
  /-- The list of inputs has run out while a transaction is outstanding on the port, so the collaborator never completes it: "The model then
  has no step for PCFG, and PCFG is stuck" (R51). Raised by `nextWork`. Safe: nothing is proved of what follows. -/
  | stalled
  /-- A continuation finds a latch that holds ⊥. No run reaches it: no rule reads a latch before writing it (R156). Raised by the
  operations that read a latch. Safe. -/
  | emptyLatch (l : Latch)
  /-- The sequencer is in a state for which the latched command has no rule. No run reaches it. Raised by the commands with
  transactions and by `nextWork`. Safe. -/
  | noRule (f : Fsm)
deriving DecidableEq, Repr

/-- Why the model gives no meaning. -/
inductive Refusal where
  /-- The command has no meaning in this model yet. Raised only by an arm of `exec`. Safe. -/
  | notModelled (mnemonic : String)
  /-- A transaction at an offset outside the contract of the port: "undefined and the collaborator's contract", to be refused and
  never given a value (R47; spec/93_implementation_defined.md U1). Raised by `inContract`. No run reaches it. Safe. -/
  | configOffset (off : Off)
deriving DecidableEq, Repr

/-- The machine: PCFG's registers and latches (R21), its port (R46), the inputs of this step and of the steps to come, the trace. -/
structure State where
  /-- The sequencer state (R23). -/
  fsm : Fsm
  /-- BUSY (R22). -/
  busy : Bool
  /-- CMD_L: the accepted command word (R24). -/
  cmdL : Option Word
  /-- KEY_L: the key of the function being accessed (R24). -/
  keyL : Option Word
  /-- OFF_L: the offset of the current access (R24). -/
  offL : Option Off
  /-- RAW_L: the first value read (R24). -/
  rawL : Option Word
  /-- BACK_L: the value read back after the all-ones write (R24). -/
  backL : Option Word
  /-- R_OUTCOME (R25). -/
  outcome : BitVec 2
  /-- R_ERR (R26). -/
  err : BitVec 4
  /-- R_VAL0 (R27). -/
  val0 : Option Word
  /-- R_VAL1 (R27). -/
  val1 : Option Word
  /-- R_VAL2 (R27). -/
  val2 : Option Word
  /-- R_VAL3 (R27). -/
  val3 : Option Word
  /-- R_BAR_KIND (R28). -/
  barKind : Option (BitVec 2)
  /-- R_BAR_ADDR (R29). -/
  barAddr : Option Long
  /-- R_BAR_SIZE (R30). -/
  barSize : Option Long
  /-- R_BAR_PF (R31). -/
  barPf : Option (BitVec 1)
  /-- The outstanding transaction, if any (R46). -/
  port : Option Transaction
  /-- The transaction that a completing step of the running command made the next one; the port presents it in the next step (R46;
  log entry 4). -/
  pending : Option Transaction
  /-- How many transactions have been issued: the number of the next one (log entry 3). -/
  issued : Nat
  /-- The events on the port, oldest first (R50). -/
  history : List Event
  /-- The input signals of the current step. -/
  pins : Pins
  /-- The input signals of the steps to come (log entry 1). -/
  inputs : List Pins
  /-- What the host's read in the current step returned, zero-extended (log entry 5). -/
  hostData : Option Long
deriving DecidableEq, Repr

/-- The machine right after reset (R43, R169). The last seven fields are not PCFG's: nothing outstanding, no trace, no input
(DESIGN CHOICE, log entries 1, 3, 4, 5 and 10). -/
def State.reset : State :=
  { fsm := .idle, busy := false
    cmdL := none, keyL := none, offL := none, rawL := none, backL := none
    outcome := 0#2, err := 0#4
    val0 := none, val1 := none, val2 := none, val3 := none
    barKind := none, barAddr := none, barSize := none, barPf := none
    port := none, pending := none, issued := 0, history := [], pins := Pins.quiet, inputs := [], hostData := none }

end Sys2Proof.Machine
end

