-- ==== Sys2Proof/Machine/Flags.lean ====
section
/-! DEFINITION. The flags of PCFG are R_OUTCOME, R_ERR and BUSY (spec/10_state.md R33): their codes, and the one operation that
moves the sequencer and BUSY together (R22, R23). -/

namespace Sys2Proof.Machine

/-- The outcomes a completion can have; NONE is the reset value (R25). -/
inductive CmdOutcome where
  | ok
  | absent
  | error
deriving DecidableEq, Repr

/-- R_OUTCOME's code (R25): 0 is NONE, which no completion writes. -/
def outcomeCode : CmdOutcome → BitVec 2
  | .ok => 1#2
  | .absent => 2#2
  | .error => 3#2

/-- The conditions a command reports as errors (spec/60_exceptions.md R151). -/
inductive ErrorCode where
  | rangeExhausted
  | barReservedType
  | barSizeUndetermined
  | fieldRange
  | invalidSlot
  | invalidBitRange
  | illegalCommand
deriving DecidableEq, Repr

/-- R_ERR's code (R151); 0 is no error, and 8 to 15 are never written. -/
def errorCode : ErrorCode → BitVec 4
  | .rangeExhausted => 1#4
  | .barReservedType => 2#4
  | .barSizeUndetermined => 3#4
  | .fieldRange => 4#4
  | .invalidSlot => 5#4
  | .invalidBitRange => 6#4
  | .illegalCommand => 7#4

/-- The variants of the tagged union Bar (R28). -/
inductive BarVariant where
  | memory32
  | memory64
  | io
deriving DecidableEq, Repr

/-- R_BAR_KIND's code (R28); 3 is never written. -/
def barKindCode : BarVariant → BitVec 2
  | .memory32 => 0#2
  | .memory64 => 1#2
  | .io => 2#2

/-- `fsm <- f`, with BUSY 1 exactly when `f` is not IDLE (R22, R23). -/
def State.goto (s : State) (f : Fsm) : State :=
  { s with fsm := f, busy := f != .idle }

/-- The command port's ready signal (R22, R67). -/
def State.cmdReady (s : State) : Bool := !s.busy

end Sys2Proof.Machine
end

