-- ==== Sys2Proof/Machine/Operands.lean ====
section
/-! DEFINITION. Operand forms: bit fields of words (spec/00_scope.md R10, R11), the address key (spec/40_address.md R80), the count of
trailing zeros (R12), the header kind (spec/41_field_extract.md R107), offsets of BAR slots (R7), the parts of a BAR (R40). -/

namespace Sys2Proof.Machine

/-- `zext_32(v[hi:lo])` (R10, R11). -/
def field {n : Nat} (v : BitVec n) (hi lo : Nat) : Word := (v.extractLsb' lo (hi + 1 - lo)).setWidth 32

/-- `zext_32(v[i])`: a flag result, 0 or 1 (R11, R94). -/
def flag {n : Nat} (v : BitVec n) (i : Nat) : Word := field v i i

/-- The 16-bit word of an operand: bits 15:0, the rest ignored (R72). -/
def low16 (w : Word) : BitVec 16 := w.extractLsb' 0 16

/-- The key of a segment, bus, device and function: `{s, b, d, f}` (R80). -/
def packKey (s : BitVec 16) (b : BitVec 8) (d : BitVec 5) (f : BitVec 3) : Word := s ++ b ++ d ++ f

/-- The least `i` from `i` up, among the next `n`, at which `v` has a 1. -/
def ctzFrom (v : Word) : Nat → Nat → Nat
  | 0, i => i
  | n + 1, i => if v.getLsbD i then i else ctzFrom v n (i + 1)

/-- `ctz(v)`: the least `i` with `v[i] = 1`; asked only of a nonzero word (R12). -/
def ctz (v : Word) : Nat := ctzFrom v 32 0

/-- The kind of a 7-bit header type, given zero-extended: 0, 1, 2, or 3 for an unrecognised one (R107). -/
def headerKind (t : Word) : Word :=
  if t = 0#32 then 0#32 else if t = 1#32 then 1#32 else if t = 2#32 then 2#32 else 3#32

/-- The offset of a BAR slot, `0x10 + 4*slot` (R7, R71). -/
def barOffset (slot : Nat) : Off := BitVec.ofNat 12 (0x10 + 4 * slot)

/-- The base address in a memory BAR: the low 4 bits cleared (R40, R142). -/
def memoryBase (raw : Word) : Word := raw &&& 0xFFFFFFF0#32

/-- The port in an I/O BAR: bits 31:2 in place, bits 1:0 cleared (R136; spec/90_conflicts.md C4). -/
def ioPort (raw : Word) : Word := raw &&& 0xFFFFFFFC#32

/-- `rem`: the read-back without its low 4 bits (R141). -/
def sizeRemainder (back : Word) : Word := back &&& 0xFFFFFFF0#32

/-- `size32 = 1 << ctz(rem)`, a 32-bit value (R141). -/
def barSize32 (back : Word) : Word := 1#32 <<< ctz (sizeRemainder back)

/-- The prefetchable bit of a memory BAR, bit 3 (R40, R142). -/
def prefetchable (raw : Word) : BitVec 1 := raw.extractLsb' 3 1

/-- The memory type of a BAR, bits 2:1 (R40, R137). -/
def memoryType (raw : Word) : BitVec 2 := raw.extractLsb' 1 2

end Sys2Proof.Machine
end

