-- ==== Sys2Proof/Machine/Ops.lean ====
section
/-! DEFINITION. The named operations every command is written over: completion and errors (spec/00_scope.md R14,
spec/60_exceptions.md R156), reset (spec/70_reset_and_hazards.md R169), transactions on the port (spec/20_memory.md R46), the
latches (spec/10_state.md R24), the host's reads (R15), and the choice of a step's work (spec/30_encoding.md R67). PCFG has no
trap: "taking an exception" is `State.raiseError`, a completion with an error code, and there is no return from it (R156, R158). -/

namespace Sys2Proof.Machine

/-- What a step or a meaning answers. -/
abbrev StepOutcome := Host.Outcome State Fault Refusal

/-! ### Completion -/

/-- The value registers a completion lists; an unlisted one is ⊥ (R14). -/
structure Results where
  val0 : Option Word := none
  val1 : Option Word := none
  val2 : Option Word := none
  val3 : Option Word := none
  barKind : Option (BitVec 2) := none
  barAddr : Option Long := none
  barSize : Option Long := none
  barPf : Option (BitVec 1) := none
deriving DecidableEq, Repr

/-- `Finish(outcome, err, {…})` and `fsm <- IDLE` (R14, R124). -/
def State.finish (s : State) (o : CmdOutcome) (e : BitVec 4) (r : Results) : State :=
  { s.goto .idle with
    outcome := outcomeCode o, err := e
    val0 := r.val0, val1 := r.val1, val2 := r.val2, val3 := r.val3
    barKind := r.barKind, barAddr := r.barAddr, barSize := r.barSize, barPf := r.barPf }

/-- `Finish(OK, 0, {…})`. -/
def State.finishOk (s : State) (r : Results) : StepOutcome := .next (s.finish .ok 0#4 r)

/-- `Absent()` is `Finish(ABSENT, 0, {})` (R14, R152). -/
def State.finishAbsent (s : State) : StepOutcome := .next (s.finish .absent 0#4 {})

/-- `raise Error(code)` is `Finish(ERROR, code, {})`: it saves nothing and jumps nowhere (R14, R156). -/
def State.raiseError (s : State) (c : ErrorCode) : StepOutcome := .next (s.finish .error (errorCode c) {})

/-- An illegal command completes at once with ILLEGAL_COMMAND (R74, R154). -/
def State.rejectCommand (s : State) : StepOutcome := s.raiseError .illegalCommand

/-! ### Reset -/

/-- `rst = 1`: every piece of PCFG's state to its reset value, the command in progress abandoned, no transaction issued (R169,
R170). The trace, the count of transactions and the inputs are not PCFG's and stay (log entry 10). -/
def State.applyReset (s : State) : State :=
  { State.reset with
    issued := s.issued, history := s.history, pins := s.pins, inputs := s.inputs, hostData := s.hostData }

/-! ### Transactions -/

/-- The offset of a transaction. -/
def Transaction.offset : Transaction → Off
  | .read _ o => o
  | .write _ o _ => o

/-- The contract of the port: a multiple of 4 below CFG_SPACE_BYTES, which is at least 256 (R6, R47). -/
def offsetOk (o : Off) : Bool :=
  o.toNat % 4 == 0 && (decide (o.toNat < 256) || decide (o.toNat < Config.cfgSpaceBytes))

/-- PCFG presents a transaction on the port; the trace records it (R46, R50). -/
def State.present (s : State) (t : Transaction) : State :=
  { s with port := some t, pending := none, issued := s.issued + 1, history := s.history ++ [.issued t] }

/-- The state `t`, refused where its transaction is outside the port's contract (R47; spec/93_implementation_defined.md U1; log entry
11). -/
def inContract (x : Transaction) (t : State) : StepOutcome :=
  if offsetOk x.offset then .next t else .refused (.configOffset x.offset)

/-- `issue x; fsm <- f` in an acceptance step: the first transaction of a command is presented at once (R124, R134). -/
def State.issue (s : State) (x : Transaction) (f : Fsm) : StepOutcome := inContract x ((s.goto f).present x)

/-- `x` is the next transaction of the running command, and the sequencer goes to `f`. -/
def State.prepare (s : State) (x : Transaction) (f : Fsm) : State := { s.goto f with pending := some x }

/-- `issue x; fsm <- f` in a step in which a transaction completes (R131, R137 to R139, R143): "The next transaction of the same
command is issued only in a step after the previous one completed" (R46), so the port presents `x` in the next step (log entry 4). -/
def State.issueNext (s : State) (x : Transaction) (f : Fsm) : StepOutcome := inContract x (s.prepare x f)

/-- The data of this step's completion, if it completes the outstanding transaction; a completion of any other, such as one a
reset abandoned, is ignored (R46, R169; log entry 3). -/
def State.completion (s : State) : Option Word :=
  match s.port, s.pins.done with
  | some _, some c => if c.number + 1 = s.issued then some c.data else none
  | _, _ => none

/-- The outstanding transaction is complete (R46); the trace records how (R50, R61). -/
def State.retire (s : State) (e : Event) : State :=
  { s with port := none, history := s.history ++ [e] }

/-- A step in which nothing completes: with nothing outstanding the next transaction is presented, and otherwise PCFG only waits
(R46, R167). -/
def State.presentPending (s : State) : State :=
  match s.port, s.pending with
  | none, some x => s.present x
  | _, _ => s

/-- A command goes on in the step in which its outstanding transaction completes, with the data `v` of the completion. -/
def State.onDone (s : State) (k : Word → StepOutcome) : StepOutcome :=
  match s.completion with
  | none => .next s.presentPending
  | some v => k v

/-- `onDone` for a read, which completes with the data `v` (R46). -/
def State.onReadDone (s : State) (k : Word → State → StepOutcome) : StepOutcome :=
  s.onDone fun v => k v (s.retire (.readDone v))

/-- `onDone` for a write: its acknowledgement carries no data (R46). -/
def State.onWriteDone (s : State) (k : State → StepOutcome) : StepOutcome :=
  s.onDone fun _ => k (s.retire .writeDone)

/-! ### Latches -/

/-- `CMD_L <- cmd; KEY_L <- opa; OFF_L <- off` at acceptance (R124, R134). -/
def State.latchCommand (s : State) (off : Off) : State :=
  { s with cmdL := some s.pins.cmd, keyL := some s.pins.opa, offL := some off }

/-- `OFF_L <- off` (R131, R143). -/
def State.latchOff (s : State) (off : Off) : State := { s with offL := some off }

/-- `RAW_L <- v` (R131, R135). -/
def State.latchRaw (s : State) (v : Word) : State := { s with rawL := some v }

/-- `BACK_L <- v` (R139). -/
def State.latchBack (s : State) (v : Word) : State := { s with backL := some v }

/-- Go on with KEY_L. -/
def State.withKey (s : State) (k : Word → StepOutcome) : StepOutcome :=
  match s.keyL with
  | some key => k key
  | none => .fault (.emptyLatch .key)

/-- Go on with KEY_L and OFF_L. -/
def State.withAccess (s : State) (k : Word → Off → StepOutcome) : StepOutcome :=
  s.withKey fun key =>
    match s.offL with
    | some off => k key off
    | none => .fault (.emptyLatch .off)

/-- Go on with RAW_L. -/
def State.withRaw (s : State) (k : Word → StepOutcome) : StepOutcome :=
  match s.rawL with
  | some raw => k raw
  | none => .fault (.emptyLatch .raw)

/-- Go on with BACK_L. -/
def State.withBack (s : State) (k : Word → StepOutcome) : StepOutcome :=
  match s.backL with
  | some back => k back
  | none => .fault (.emptyLatch .back)

/-- The acceptance step of a command that reads: latch, issue the read at `off`, wait in `f` (R124, R134). -/
def State.acceptRead (s : State) (off : Off) (f : Fsm) : StepOutcome :=
  (s.latchCommand off).issue (.read s.pins.opa off) f

/-! ### The host and the choice of a step's work -/

/-- What the host reads from a register, zero-extended; `none` is ⊥ (R22, R25 to R31). -/
def State.readRegister (s : State) : HostReg → Option Long
  | .busy => some ((BitVec.ofBool s.busy).setWidth 64)
  | .outcome => some (s.outcome.setWidth 64)
  | .err => some (s.err.setWidth 64)
  | .val0 => s.val0.map (BitVec.setWidth 64)
  | .val1 => s.val1.map (BitVec.setWidth 64)
  | .val2 => s.val2.map (BitVec.setWidth 64)
  | .val3 => s.val3.map (BitVec.setWidth 64)
  | .barKind => s.barKind.map (BitVec.setWidth 64)
  | .barAddr => s.barAddr
  | .barSize => s.barSize
  | .barPf => s.barPf.map (BitVec.setWidth 64)

/-- Take the next step's input signals; when the list has run out every signal is quiet (log entry 1). -/
def State.sample (s : State) : State :=
  { s with pins := s.inputs.headD Pins.quiet, inputs := s.inputs.tail }

/-- What the host's read of this step returned; nothing when it reads nothing. -/
def State.showHost (s : State) (d : Option Long) : State := { s with hostData := d }

/-- Serve the host's read of this step, from the values the registers hold before the step's work (log entry 5); a read of ⊥ is a
fault (R15). -/
def State.serveRead (s : State) : Except Fault State :=
  match s.pins.read with
  | none => .ok (s.showHost none)
  | some r =>
    match s.readRegister r with
    | some v => .ok (s.showHost (some v))
    | none => .error (.readOfBottom r)

/-- What a step has to do: nothing more than `o`, or its part of a command. -/
inductive Work where
  | ends (o : StepOutcome)
  | runs (i : Instr) (s : State)

/-- A command is in flight: the latched one goes on (R24, R149). -/
def latchedWork (s : State) : Work :=
  match s.cmdL with
  | none => .ends (.fault (.emptyLatch .cmd))
  | some w =>
    match decode w with
    | .ok i => .runs i s
    | .error _ => .ends (.fault (.noRule s.fsm))

/-- PCFG is ready: a presented command is accepted (R67), an illegal one completes at once (R154), and without one nothing
happens. -/
def presentedWork (s : State) : Work :=
  if s.pins.cmdValid then
    match decode s.pins.cmd with
    | .ok i => .runs i s
    | .error _ => .ends s.rejectCommand
  else .ends (.next s)

/-- The work of a step whose inputs are sampled and whose host read is served. A reset comes before everything else (R169). While
BUSY, a presented command is not looked at (R67). A state in which BUSY and fsm disagree breaks R23: no run reaches it. -/
def sampledWork (s : State) : Work :=
  if s.pins.rst then .ends (.next s.applyReset)
  else if s.busy != (s.fsm != .idle) then .ends (.fault (.noRule s.fsm))
  else if s.busy then latchedWork s
  else presentedWork s

/-- The work of the next step. With a transaction outstanding and no input left, PCFG is stuck (R51; log entry 2). -/
def nextWork (s : State) : Work :=
  if s.port.isSome && s.inputs.isEmpty then .ends (.fault .stalled)
  else match s.sample.serveRead with
    | .error f => .ends (.fault f)
    | .ok s1 => sampledWork s1

end Sys2Proof.Machine
end

