-- ==== Sys2Proof/Machine/Address.lean ====
section
/-! DEFINITION. The address unit (spec/40_address.md R80 to R93): encode, four accessors, four advance commands. Each completes in
the step that accepts it and issues no transaction. -/

namespace Sys2Proof.Machine

/-- ADDR_ENCODE (R83): a spare operand bit, a device above 31 or a function above 7 is FIELD_RANGE. -/
def execAddrEncode (s : State) : StepOutcome :=
  let d8 : BitVec 8 := s.pins.opb.extractLsb' 8 8
  let f8 : BitVec 8 := s.pins.opb.extractLsb' 16 8
  if field s.pins.opa 31 16 ≠ 0#32 ∨ field s.pins.opb 31 24 ≠ 0#32 ∨ 31 < d8.toNat ∨ 7 < f8.toNat then
    s.raiseError .fieldRange
  else
    s.finishOk { val0 := some (packKey (s.pins.opa.extractLsb' 0 16) (s.pins.opb.extractLsb' 0 8)
      (d8.extractLsb' 0 5) (f8.extractLsb' 0 3)) }

/-- ADDR_SEGMENT (R84). -/
def execAddrSegment (s : State) : StepOutcome := s.finishOk { val0 := some (field s.pins.opa 31 16) }

/-- ADDR_BUS (R85). -/
def execAddrBus (s : State) : StepOutcome := s.finishOk { val0 := some (field s.pins.opa 15 8) }

/-- ADDR_DEVICE (R86). -/
def execAddrDevice (s : State) : StepOutcome := s.finishOk { val0 := some (field s.pins.opa 7 3) }

/-- ADDR_FUNCTION (R87). -/
def execAddrFunction (s : State) : StepOutcome := s.finishOk { val0 := some (field s.pins.opa 2 0) }

/-- The common rule of the advance commands (R88): add the weight in 33 bits, clear the bits below it. -/
def advance (weight : Word) (s : State) : StepOutcome :=
  let sum : BitVec 33 := s.pins.opa.setWidth 33 + weight.setWidth 33
  if sum.getLsbD 32 then s.raiseError .rangeExhausted
  else s.finishOk { val0 := some (sum.extractLsb' 0 32 &&& ~~~(weight - 1#32)) }

/-- ADV_FUNCTION (R89). -/
def execAdvFunction (s : State) : StepOutcome := advance 0x00000001#32 s

/-- ADV_DEVICE (R90). -/
def execAdvDevice (s : State) : StepOutcome := advance 0x00000008#32 s

/-- ADV_BUS (R91). -/
def execAdvBus (s : State) : StepOutcome := advance 0x00000100#32 s

/-- ADV_SEGMENT (R92). -/
def execAdvSegment (s : State) : StepOutcome := advance 0x00010000#32 s

end Sys2Proof.Machine
end

