-- ==== Sys2Proof/Machine/Bar.lean ====
section
/-! DEFINITION. The BAR probe unit (spec/43_bar_probe.md R133 to R144): one definition per transition of its state machine. -/

namespace Sys2Proof.Machine

/-- Acceptance (R134). -/
def barAccept (slot : Nat) (s : State) : StepOutcome :=
  if 5 < slot then s.raiseError .invalidSlot else s.acceptRead (barOffset slot) .barRawRd

/-- The raw read completes with `v` (R135): an I/O BAR completes (R136), a reserved memory type is an error before any write, and
a memory BAR gets the all-ones write (R137). -/
def barRawDone (v : Word) (s : State) : StepOutcome :=
  let s := s.latchRaw v
  if v.getLsbD 0 then
    s.finishOk { barKind := some (barKindCode .io), barAddr := some ((ioPort v).setWidth 64) }
  else if memoryType v = 0b01#2 ∨ memoryType v = 0b11#2 then s.raiseError .barReservedType
  else s.withAccess fun key off => s.issueNext (.write key off allOnes) .barOnesWr

/-- The all-ones write completes: read back (R138). -/
def barOnesDone (s : State) : StepOutcome :=
  s.withAccess fun key off => s.issueNext (.read key off) .barBackRd

/-- The read-back completes with `v`: restore, whatever `v` is (R139). -/
def barBackDone (v : Word) (s : State) : StepOutcome :=
  let s := s.latchBack v
  s.withRaw fun raw => s.withAccess fun key off => s.issueNext (.write key off raw) .barRestoreWr

/-- What a memory BAR's completion lists, but for its kind and address (R142, R144). -/
def memoryResults (raw back : Word) : Results :=
  { barSize := some ((barSize32 back).setWidth 64), barPf := some (prefetchable raw) }

/-- The upper-half read at `OFF_L + 4` is the next transaction (R143). -/
def barUpperRead (s : State) : StepOutcome :=
  s.withAccess fun key off => (s.latchOff (off + 4#12)).issueNext (.read key (off + 4#12)) .barUpperRd

/-- The restoring write completes (R141): absent, undetermined, a 32-bit BAR (R142), or the upper half to read (R143). -/
def barRestoreDone (s : State) : StepOutcome :=
  s.withRaw fun raw => s.withBack fun back =>
    if back = 0#32 then s.finishAbsent
    else if sizeRemainder back = 0#32 then s.raiseError .barSizeUndetermined
    else if memoryType raw = 0b00#2 then
      s.finishOk { memoryResults raw back with
        barKind := some (barKindCode .memory32), barAddr := some ((memoryBase raw).setWidth 64) }
    else barUpperRead s

/-- The upper-half read completes with `u` (R144). -/
def barUpperDone (u : Word) (s : State) : StepOutcome :=
  s.withRaw fun raw => s.withBack fun back =>
    s.finishOk { memoryResults raw back with
      barKind := some (barKindCode .memory64), barAddr := some (u ++ memoryBase raw) }

/-- BAR_PROBE (R133): the part of the probe that belongs to the sequencer's state. -/
def execBarProbe (slot : Nat) (s : State) : StepOutcome :=
  match s.fsm with
  | .idle => barAccept slot s
  | .barRawRd => s.onReadDone barRawDone
  | .barOnesWr => s.onWriteDone barOnesDone
  | .barBackRd => s.onReadDone barBackDone
  | .barRestoreWr => s.onWriteDone barRestoreDone
  | .barUpperRd => s.onReadDone barUpperDone
  | f => .fault (.noRule f)

end Sys2Proof.Machine
end

