-- ==== Sys2Proof/Machine/Extract.lean ====
section
/-! DEFINITION. The field extractor (spec/41_field_extract.md R94 to R123): pure functions of opa, completed in the step that accepts
them. Field places of header values are those of spec/10_state.md R37, of the status word those of R39 (log entry 6). -/

namespace Sys2Proof.Machine

/-- BITS32 (R95). -/
def execBits32 (hi lo : Nat) (s : State) : StepOutcome :=
  if hi < lo then s.raiseError .invalidBitRange
  else s.finishOk { val0 := some (field s.pins.opa hi lo) }

/-- BITS16 (R96): bits of opa above bit 15 are ignored. -/
def execBits16 (hi lo : Nat) (s : State) : StepOutcome :=
  if 15 < hi ∨ hi < lo then s.raiseError .invalidBitRange
  else s.finishOk { val0 := some (field (low16 s.pins.opa) hi lo) }

/-- A named extractor of a field result over the 32-bit value in opa (R94). -/
def extractField (hi lo : Nat) (s : State) : StepOutcome := s.finishOk { val0 := some (field s.pins.opa hi lo) }

/-- A status decoder over the 16-bit status word in opa (R112). -/
def decodeStatus (hi lo : Nat) (s : State) : StepOutcome :=
  s.finishOk { val0 := some (field (low16 s.pins.opa) hi lo) }

/-- F_VENDOR_ID, bits 15:0 (R97). -/
def execFVendorId (s : State) : StepOutcome := extractField 15 0 s

/-- F_DEVICE_ID, bits 31:16 (R98). -/
def execFDeviceId (s : State) : StepOutcome := extractField 31 16 s

/-- F_COMMAND, bits 15:0 (R99). -/
def execFCommand (s : State) : StepOutcome := extractField 15 0 s

/-- F_STATUS, bits 31:16 (R100). -/
def execFStatus (s : State) : StepOutcome := extractField 31 16 s

/-- F_REVISION, bits 7:0 (R101). -/
def execFRevision (s : State) : StepOutcome := extractField 7 0 s

/-- F_PROG_IF, bits 15:8 (R102). -/
def execFProgIf (s : State) : StepOutcome := extractField 15 8 s

/-- F_SUBCLASS, bits 23:16 (R103). -/
def execFSubclass (s : State) : StepOutcome := extractField 23 16 s

/-- F_BASECLASS, bits 31:24 (R104). -/
def execFBaseclass (s : State) : StepOutcome := extractField 31 24 s

/-- F_CACHELINE, bits 7:0 (R105). -/
def execFCacheline (s : State) : StepOutcome := extractField 7 0 s

/-- F_LATENCY, bits 15:8 (R106). -/
def execFLatency (s : State) : StepOutcome := extractField 15 8 s

/-- F_HEADER_TYPE, bits 22:16, with its kind (R107, R108). -/
def execFHeaderType (s : State) : StepOutcome :=
  s.finishOk { val0 := some (field s.pins.opa 22 16), val1 := some (headerKind (field s.pins.opa 22 16)) }

/-- F_MULTIFUNCTION, bit 23 (R109). -/
def execFMultifunction (s : State) : StepOutcome := extractField 23 23 s

/-- F_BIST, bits 31:24 (R110). -/
def execFBist (s : State) : StepOutcome := extractField 31 24 s

/-- F_CAP_PTR, bits 7:0 (R111). -/
def execFCapPtr (s : State) : StepOutcome := extractField 7 0 s

/-- S_INT_STATUS, status bit 3 (R113). -/
def execSIntStatus (s : State) : StepOutcome := decodeStatus 3 3 s

/-- S_CAP_LIST, status bit 4 (R114). -/
def execSCapList (s : State) : StepOutcome := decodeStatus 4 4 s

/-- S_66MHZ, status bit 5 (R115). -/
def execS66mhz (s : State) : StepOutcome := decodeStatus 5 5 s

/-- S_FAST_B2B, status bit 7 (R116). -/
def execSFastB2b (s : State) : StepOutcome := decodeStatus 7 7 s

/-- S_MASTER_DPE, status bit 8 (R117). -/
def execSMasterDpe (s : State) : StepOutcome := decodeStatus 8 8 s

/-- S_DEVSEL, status bits 10:9 (R118). -/
def execSDevsel (s : State) : StepOutcome := decodeStatus 10 9 s

/-- S_SIG_TABORT, status bit 11 (R119). -/
def execSSigTabort (s : State) : StepOutcome := decodeStatus 11 11 s

/-- S_RCV_TABORT, status bit 12 (R120). -/
def execSRcvTabort (s : State) : StepOutcome := decodeStatus 12 12 s

/-- S_RCV_MABORT, status bit 13 (R121). -/
def execSRcvMabort (s : State) : StepOutcome := decodeStatus 13 13 s

/-- S_SIG_SERR, status bit 14 (R122). -/
def execSSigSerr (s : State) : StepOutcome := decodeStatus 14 14 s

/-- S_DET_PERR, status bit 15 (R123). -/
def execSDetPerr (s : State) : StepOutcome := decodeStatus 15 15 s

end Sys2Proof.Machine
end

