-- ==== Sys2Proof/Machine/Header.lean ====
section
/-! DEFINITION. The header reader (spec/42_config_header.md R124 to R131). A meaning is the command's part of ONE step: its acceptance
when the sequencer is IDLE, its continuation in the states it waits in. -/

namespace Sys2Proof.Machine

/-- The common sequence (R124): accept and read at `off`; when the read completes with `v`, `complete v`. -/
def headerRead (off : Off) (complete : Word → State → StepOutcome) (s : State) : StepOutcome :=
  match s.fsm with
  | .idle => s.acceptRead off .hdrRd0
  | .hdrRd0 => s.onReadDone complete
  | f => .fault (.noRule f)

/-- CFG_IDENTITY (R125). -/
def execCfgIdentity (s : State) : StepOutcome :=
  headerRead 0x00#12 (fun v s => s.finishOk { val0 := some (field v 15 0), val1 := some (field v 31 16) }) s

/-- CFG_STATUS (R126). -/
def execCfgStatus (s : State) : StepOutcome :=
  headerRead 0x04#12 (fun v s => s.finishOk { val0 := some (field v 31 16) }) s

/-- CFG_REV_CLASS (R127): revision, base class, subclass, programming interface. -/
def execCfgRevClass (s : State) : StepOutcome :=
  headerRead 0x08#12 (fun v s => s.finishOk
    { val0 := some (field v 7 0), val1 := some (field v 31 24)
      val2 := some (field v 23 16), val3 := some (field v 15 8) }) s

/-- CFG_HEADER_TYPE (R128). -/
def execCfgHeaderType (s : State) : StepOutcome :=
  headerRead 0x0C#12 (fun v s => s.finishOk
    { val0 := some (field v 22 16), val1 := some (headerKind (field v 22 16)) }) s

/-- CFG_MULTIFUNCTION (R129). -/
def execCfgMultifunction (s : State) : StepOutcome :=
  headerRead 0x0C#12 (fun v s => s.finishOk { val0 := some (flag v 23) }) s

/-- CFG_ENDPOINT (R130): OK without a value for header type 0, otherwise ABSENT. -/
def execCfgEndpoint (s : State) : StepOutcome :=
  headerRead 0x0C#12 (fun v s => if field v 22 16 = 0#32 then s.finishOk {} else s.finishAbsent) s

/-- CFG_CAP_POINTER once its status read has completed with `v` (R131): 0 when bit 20 is clear, else the read at 0x34. -/
def capPointerGate (v : Word) (s : State) : StepOutcome :=
  if v.getLsbD 20 then
    (s.latchRaw v).withKey fun key => ((s.latchRaw v).latchOff 0x34#12).issueNext (.read key 0x34#12) .hdrRd1
  else (s.latchRaw v).finishOk { val0 := some 0#32 }

/-- CFG_CAP_POINTER (R131): one read at 0x04, then, if status bit 4 is set, one at 0x34. -/
def execCfgCapPointer (s : State) : StepOutcome :=
  match s.fsm with
  | .idle => s.acceptRead 0x04#12 .hdrRd0
  | .hdrRd0 => s.onReadDone capPointerGate
  | .hdrRd1 => s.onReadDone fun v s => s.finishOk { val0 := some (field v 7 0) }
  | f => .fault (.noRule f)

end Sys2Proof.Machine
end

