-- ==== Sys2Proof/Machine/Dispatch.lean ====
section
/-! DEFINITION. The dispatch from a command to its meaning, one arm per row of the opcode map (spec/30_encoding.md R73). -/

namespace Sys2Proof.Machine

def exec (i : Instr) (s : State) : Host.Outcome State Fault Refusal :=
  match i with
  | .addrEncode => Sys2Proof.Machine.execAddrEncode s
  | .addrSegment => Sys2Proof.Machine.execAddrSegment s
  | .addrBus => Sys2Proof.Machine.execAddrBus s
  | .addrDevice => Sys2Proof.Machine.execAddrDevice s
  | .addrFunction => Sys2Proof.Machine.execAddrFunction s
  | .advFunction => Sys2Proof.Machine.execAdvFunction s
  | .advDevice => Sys2Proof.Machine.execAdvDevice s
  | .advBus => Sys2Proof.Machine.execAdvBus s
  | .advSegment => Sys2Proof.Machine.execAdvSegment s
  | .bits32 hi lo => Sys2Proof.Machine.execBits32 hi lo s
  | .bits16 hi lo => Sys2Proof.Machine.execBits16 hi lo s
  | .fVendorId => Sys2Proof.Machine.execFVendorId s
  | .fDeviceId => Sys2Proof.Machine.execFDeviceId s
  | .fCommand => Sys2Proof.Machine.execFCommand s
  | .fStatus => Sys2Proof.Machine.execFStatus s
  | .fRevision => Sys2Proof.Machine.execFRevision s
  | .fProgIf => Sys2Proof.Machine.execFProgIf s
  | .fSubclass => Sys2Proof.Machine.execFSubclass s
  | .fBaseclass => Sys2Proof.Machine.execFBaseclass s
  | .fCacheline => Sys2Proof.Machine.execFCacheline s
  | .fLatency => Sys2Proof.Machine.execFLatency s
  | .fHeaderType => Sys2Proof.Machine.execFHeaderType s
  | .fMultifunction => Sys2Proof.Machine.execFMultifunction s
  | .fBist => Sys2Proof.Machine.execFBist s
  | .fCapPtr => Sys2Proof.Machine.execFCapPtr s
  | .sIntStatus => Sys2Proof.Machine.execSIntStatus s
  | .sCapList => Sys2Proof.Machine.execSCapList s
  | .s66mhz => Sys2Proof.Machine.execS66mhz s
  | .sFastB2b => Sys2Proof.Machine.execSFastB2b s
  | .sMasterDpe => Sys2Proof.Machine.execSMasterDpe s
  | .sDevsel => Sys2Proof.Machine.execSDevsel s
  | .sSigTabort => Sys2Proof.Machine.execSSigTabort s
  | .sRcvTabort => Sys2Proof.Machine.execSRcvTabort s
  | .sRcvMabort => Sys2Proof.Machine.execSRcvMabort s
  | .sSigSerr => Sys2Proof.Machine.execSSigSerr s
  | .sDetPerr => Sys2Proof.Machine.execSDetPerr s
  | .cfgIdentity => Sys2Proof.Machine.execCfgIdentity s
  | .cfgStatus => Sys2Proof.Machine.execCfgStatus s
  | .cfgRevClass => Sys2Proof.Machine.execCfgRevClass s
  | .cfgHeaderType => Sys2Proof.Machine.execCfgHeaderType s
  | .cfgMultifunction => Sys2Proof.Machine.execCfgMultifunction s
  | .cfgEndpoint => Sys2Proof.Machine.execCfgEndpoint s
  | .cfgCapPointer => Sys2Proof.Machine.execCfgCapPointer s
  | .barProbe slot => Sys2Proof.Machine.execBarProbe slot s

end Sys2Proof.Machine
end

