-- ==== Sys2Proof/Machine/Step.lean ====
section
/-! DEFINITION. One step of the machine (spec/30_encoding.md R67, spec/70_reset_and_hazards.md R180): take the step's inputs, choose its
work (`nextWork`), and run the command's part of it. -/

namespace Sys2Proof.Machine

/-- Do the work of a step: nothing more, or the meaning of the command. -/
def perform : Work → Host.Outcome State Fault Refusal
  | .ends o => o
  | .runs i s => exec i s

/-- One step: what `nextWork` settles by itself, or the meaning of the command it chose. -/
def step (s : State) : Host.Outcome State Fault Refusal := perform (nextWork s)

/-- `s` with the command word presented in the next step and PCFG ready to take it: cmd_valid = 1, both operand words 0, BUSY = 0
with nothing outstanding or pending (log entry 1: a command is not fetched, it is presented on the command port). -/
def State.withFetchWord (s : State) (nbits w : Nat) : State :=
  { s with
    fsm := .idle, busy := false, port := none, pending := none
    inputs := { Pins.quiet with cmdValid := true, cmd := BitVec.ofNat 32 (w % 2 ^ nbits) } :: s.inputs.tail }

end Sys2Proof.Machine
end

