-- ==== Sys2Proof/Safety.lean ====
section
/-! DEFINITION. What the claims are stated in: what a completion leaves, what a step keeps, the invariants of PCFG
(spec/10_state.md R22 to R31, spec/43_bar_probe.md R140, R145, R148, spec/20_memory.md R46, R47). -/

namespace Sys2Proof.Machine

/-! ### What a step leaves and keeps -/

/-- `t` is idle after a completion with outcome code `o`, error code `e` and the value registers of `r` (R14, R25, R26). -/
structure Finished (t : State) (o : BitVec 2) (e : BitVec 4) (r : Results) : Prop where
  fsm : t.fsm = .idle
  busy : t.busy = false
  outcome : t.outcome = o
  err : t.err = e
  val0 : t.val0 = r.val0
  val1 : t.val1 = r.val1
  val2 : t.val2 = r.val2
  val3 : t.val3 = r.val3
  barKind : t.barKind = r.barKind
  barAddr : t.barAddr = r.barAddr
  barSize : t.barSize = r.barSize
  barPf : t.barPf = r.barPf

/-- The result registers of `t` are those of `s` (R32). -/
structure ResultsKept (s t : State) : Prop where
  outcome : t.outcome = s.outcome
  err : t.err = s.err
  val0 : t.val0 = s.val0
  val1 : t.val1 = s.val1
  val2 : t.val2 = s.val2
  val3 : t.val3 = s.val3
  barKind : t.barKind = s.barKind
  barAddr : t.barAddr = s.barAddr
  barSize : t.barSize = s.barSize
  barPf : t.barPf = s.barPf

/-- The latches of `t` are those of `s` (R24). -/
structure LatchesKept (s t : State) : Prop where
  cmdL : t.cmdL = s.cmdL
  keyL : t.keyL = s.keyL
  offL : t.offL = s.offL
  rawL : t.rawL = s.rawL
  backL : t.backL = s.backL

/-- Nothing happened on the port, and the trace is the same. -/
structure PortKept (s t : State) : Prop where
  port : t.port = s.port
  pending : t.pending = s.pending
  issued : t.issued = s.issued
  history : t.history = s.history

/-- From `s` to `t` the trace grows by exactly the events `es`, in this order (R50). -/
def Appends (s t : State) (es : List Event) : Prop := t.history = s.history ++ es

/-- The input signals, the inputs to come and the host's data are the same. -/
structure InputsKept (s t : State) : Prop where
  pins : t.pins = s.pins
  inputs : t.inputs = s.inputs
  hostData : t.hostData = s.hostData

/-- Everything but the result registers and the sequencer is the same: what a command that issues no transaction leaves. -/
structure Untouched (s t : State) : Prop where
  latches : LatchesKept s t
  port : PortKept s t
  inputs : InputsKept s t

/-- From `s` to `t` the transaction `x` is presented on the port and is then outstanding (R46). -/
structure Issues (s t : State) (x : Transaction) : Prop where
  port : t.port = some x
  pending : t.pending = none
  issued : t.issued = s.issued + 1
  history : t.history = s.history ++ [.issued x]

/-- From `s` to `t` the outstanding transaction completes with `e`, nothing is presented, and `x` is the transaction to present in the
next step (R46; log entry 4). -/
structure Prepares (s t : State) (e : Event) (x : Transaction) : Prop where
  port : t.port = none
  pending : t.pending = some x
  issued : t.issued = s.issued
  history : t.history = s.history ++ [e]

/-- From `s` to `t` the outstanding transaction completes with `e` and no other is to follow. -/
structure Completes (s t : State) (e : Event) : Prop where
  port : t.port = none
  pending : t.pending = s.pending
  issued : t.issued = s.issued
  history : t.history = s.history ++ [e]

/-- The command completes in this step with outcome `o`, error `e`, the registers of `r`, and touches nothing else (R22). -/
def CompletesAtOnce (i : Instr) (s : State) (o : BitVec 2) (e : BitVec 4) (r : Results) : Prop :=
  ∃ t, exec i s = .next t ∧ Finished t o e r ∧ Untouched s t

/-- The command completes in this step, in which its read completes with `v`. -/
def CompletesOnRead (i : Instr) (s : State) (v : Word) (o : BitVec 2) (e : BitVec 4) (r : Results) : Prop :=
  ∃ t, exec i s = .next t ∧ Finished t o e r ∧ Completes s t (.readDone v) ∧ LatchesKept s t ∧ InputsKept s t

/-- The host presents the command word `w` with operands `a` and `b`, without reset and without a read by the host. -/
structure Presents (p : Pins) (w a b : Word) : Prop where
  rst : p.rst = false
  read : p.read = none
  cmdValid : p.cmdValid = true
  cmd : p.cmd = w
  opa : p.opa = a
  opb : p.opb = b

/-- The collaborator completes transaction number `n` with data `v`, without reset and without a read by the host. -/
structure Answers (p : Pins) (n : Nat) (v : Word) : Prop where
  rst : p.rst = false
  read : p.read = none
  done : p.done = some ⟨n, v⟩

/-- A step without reset and without a read by the host. -/
structure Passes (p : Pins) : Prop where
  rst : p.rst = false
  read : p.read = none

/-- PCFG is ready for a command: IDLE and not BUSY (R22, R23). -/
def State.Ready (s : State) : Prop := s.fsm = .idle ∧ s.busy = false

/-- From `s`, `k` steps of the machine answer the state `t`. -/
def State.Reaches (s : State) (k : Nat) (t : State) : Prop := Sys2Proof.core.run k s = .next t

/-- From every ready state, the word `w` presented with the key `key` and a collaborator that answers `v` in the next step take two
steps and one read, at `off`; they end with outcome `o v` and the registers of `r v`. -/
def RunsWithOneRead (w : Word) (off : Off) (o : Word → BitVec 2) (r : Word → Results) : Prop :=
  ∀ (s : State) (p0 p1 : Pins) (rest : List Pins) (key b v : Word), s.Ready → s.inputs = p0 :: p1 :: rest →
    Presents p0 w key b → Answers p1 s.issued v →
    ∃ t, s.Reaches 2 t ∧ Finished t (o v) 0#4 (r v) ∧ t.inputs = rest ∧
      Appends s t [.issued (.read key off), .readDone v]

/-- The transactions of a trace, in issue order (R50). -/
def issuedIn (h : List Event) : List Transaction :=
  h.filterMap fun
    | .issued t => some t
    | .readDone _ => none
    | .writeDone => none

/-- An outcome with its next state changed by `f`. -/
def onNext (f : State → State) : StepOutcome → StepOutcome
  | .next t => .next (f t)
  | .fault r => .fault r
  | .refused r => .refused r

/-! ### The kinds of commands -/

/-- The offset of a header command's first read (R125 to R131); no other command has one. -/
def headerOffset : Instr → Option Off
  | .cfgIdentity => some 0x00#12
  | .cfgStatus => some 0x04#12
  | .cfgRevClass => some 0x08#12
  | .cfgHeaderType => some 0x0C#12
  | .cfgMultifunction => some 0x0C#12
  | .cfgEndpoint => some 0x0C#12
  | .cfgCapPointer => some 0x04#12
  | _ => none

/-- A command that issues configuration accesses (R73: the last column). -/
def accesses : Instr → Bool
  | .barProbe _ => true
  | i => (headerOffset i).isSome

/-! ### Invariants -/

/-- "BUSY = 1 exactly when fsm ≠ IDLE" (R23). -/
def State.BusyAgrees (s : State) : Prop := s.busy = true ↔ s.fsm ≠ .idle

/-- A raw value that reaches the all-ones write: memory, of a type that is not reserved (R137). -/
def probed (raw : Word) : Prop := raw.getLsbD 0 = false ∧ (memoryType raw = 0b00#2 ∨ memoryType raw = 0b10#2)

/-- `x` is the current transaction of the running command: outstanding on the port, or to be presented in the next step (R46; log
entry 4). -/
def State.Current (s : State) (x : Transaction) : Prop :=
  (s.port = some x ∧ s.pending = none) ∨ (s.port = none ∧ s.pending = some x)

/-- CMD_L holds a probe of `slot`, at most 5, KEY_L `key` and OFF_L `off`, and `x` is the current transaction (R134). -/
structure ProbeRunning (s : State) (slot : Nat) (key : Word) (off : Off) (x : Transaction) : Prop where
  cmd : ∃ w, s.cmdL = some w ∧ decode w = .ok (.barProbe slot)
  slot : slot ≤ 5
  key : s.keyL = some key
  off : s.offL = some off
  current : s.Current x

/-- What the sequencer's state says of the latches and of the port (R24, R46, R124, R131, R134 to R143). -/
def State.Sequenced (s : State) : Prop :=
  match s.fsm with
  | .idle => s.port = none ∧ s.pending = none
  | .hdrRd0 => ∃ w i key off, s.cmdL = some w ∧ decode w = .ok i ∧ headerOffset i = some off ∧
      s.keyL = some key ∧ s.offL = some off ∧ s.port = some (.read key off) ∧ s.pending = none
  | .hdrRd1 => ∃ w key, s.cmdL = some w ∧ decode w = .ok .cfgCapPointer ∧ s.keyL = some key ∧ s.offL = some 0x34#12 ∧
      (∃ raw, s.rawL = some raw ∧ raw.getLsbD 20 = true) ∧ s.Current (.read key 0x34#12)
  | .barRawRd => ∃ slot key, s.pending = none ∧ ProbeRunning s slot key (barOffset slot) (.read key (barOffset slot))
  | .barOnesWr => ∃ slot key raw, s.rawL = some raw ∧ probed raw ∧
      ProbeRunning s slot key (barOffset slot) (.write key (barOffset slot) allOnes)
  | .barBackRd => ∃ slot key raw, s.rawL = some raw ∧ probed raw ∧
      ProbeRunning s slot key (barOffset slot) (.read key (barOffset slot))
  | .barRestoreWr => ∃ slot key raw back, s.rawL = some raw ∧ probed raw ∧ s.backL = some back ∧
      ProbeRunning s slot key (barOffset slot) (.write key (barOffset slot) raw)
  | .barUpperRd => ∃ slot key raw back, s.rawL = some raw ∧ raw.getLsbD 0 = false ∧ memoryType raw = 0b10#2 ∧
      s.backL = some back ∧ sizeRemainder back ≠ 0#32 ∧
      ProbeRunning s slot key (barOffset slot + 4#12) (.read key (barOffset slot + 4#12))

/-- The trace of a probe from its acceptance up to the sequencer state `f` (R148; the restore law R140). -/
def probeTrace (key : Word) (off : Off) (raw back : Word) : Fsm → List Event
  | .idle => []
  | .hdrRd0 => []
  | .hdrRd1 => []
  | .barRawRd => [.issued (.read key off)]
  | .barOnesWr => [.issued (.read key off), .readDone raw, .issued (.write key off allOnes)]
  | .barBackRd => [.issued (.read key off), .readDone raw, .issued (.write key off allOnes), .writeDone,
      .issued (.read key off)]
  | .barRestoreWr => [.issued (.read key off), .readDone raw, .issued (.write key off allOnes), .writeDone,
      .issued (.read key off), .readDone back, .issued (.write key off raw)]
  | .barUpperRd => [.issued (.read key off), .readDone raw, .issued (.write key off allOnes), .writeDone,
      .issued (.read key off), .readDone back, .issued (.write key off raw), .writeDone,
      .issued (.read key (off + 4#12))]

/-- The events a probe of `slot` with KEY_L `key` has made up to the state `s`: while its current transaction is only to be presented,
all but that issue. -/
def State.probeEvents (s : State) (slot : Nat) (key : Word) : List Event :=
  let es := probeTrace key (barOffset slot) (s.rawL.getD 0#32) (s.backL.getD 0#32) s.fsm
  if s.pending.isSome then es.dropLast else es

/-- While a probe runs, the trace ends with exactly the events the probe has made so far, of the key and the slot in the latches
and with the values in RAW_L and BACK_L (R140, R148). -/
def State.ProbeTraced (s : State) : Prop :=
  ∀ w slot key, s.cmdL = some w → decode w = .ok (.barProbe slot) → s.keyL = some key →
    s.probeEvents slot key <:+ s.history

/-- The invariant of the sequencer, the latches and the port. -/
structure State.Inv (s : State) : Prop where
  busy : s.BusyAgrees
  sequenced : s.Sequenced
  counted : s.issued = (issuedIn s.history).length

/-- What the result registers hold together (R14, R26, R28 to R31). -/
structure State.ResultsAgree (s : State) : Prop where
  err_iff : s.err ≠ 0#4 ↔ s.outcome = 3#2
  err_le : s.err.toNat ≤ 7
  noValue : s.outcome ≠ 1#2 → s.val0 = none ∧ s.val1 = none ∧ s.val2 = none ∧ s.val3 = none ∧ s.barKind = none
  kind : s.barKind ≠ some 3#2
  addr : s.barAddr.isSome = s.barKind.isSome
  size : s.barSize.isSome = true ↔ s.barKind = some 0#2 ∨ s.barKind = some 1#2
  pf : s.barPf.isSome = true ↔ s.barKind = some 0#2 ∨ s.barKind = some 1#2

/-- R_BAR_SIZE, when it holds a value, is a power of two from 16 bytes to 2 GiB (R145). -/
def State.SizeLegal (s : State) : Prop :=
  ∀ z, s.barSize = some z → ∃ k, 4 ≤ k ∧ k ≤ 31 ∧ z.toNat = 2 ^ k

/-- The transactions PCFG may issue: reads at the offsets R47 lists, writes only to BAR slots (R38, R47, R58). -/
def Transaction.legal : Transaction → Prop
  | .read _ o => o.toNat ∈ [0x00, 0x04, 0x08, 0x0C, 0x34, 0x10, 0x14, 0x18, 0x1C, 0x20, 0x24, 0x28]
  | .write _ o _ => o.toNat ∈ [0x10, 0x14, 0x18, 0x1C, 0x20, 0x24]

/-- Every transaction of the trace is one PCFG may issue (R47). -/
def State.OffsetsLegal (s : State) : Prop := ∀ x ∈ issuedIn s.history, x.legal

end Sys2Proof.Machine
end

