-- ==== Sys2Proof/Certificates/Slice0/Obligations.lean ====
section
/-! DEFINITION. The statements for the provers. A docstring names the rule of spec/ a statement formalises; where a statement rests on
a choice of the model it names the log entry. -/

open Sys2Proof Sys2Proof.Machine

/-! ### Decoding -/

/-- The words of the address unit (R73). -/
def Sys2Proof.addressWords : List (Word × Instr) :=
  [(0x10#32, .addrEncode), (0x11#32, .addrSegment), (0x12#32, .addrBus), (0x13#32, .addrDevice), (0x14#32, .addrFunction),
   (0x18#32, .advFunction), (0x19#32, .advDevice), (0x1A#32, .advBus), (0x1B#32, .advSegment)]

/-- The words of the named field extractors (R73). -/
def Sys2Proof.extractorWords : List (Word × Instr) :=
  [(0x30#32, .fVendorId), (0x31#32, .fDeviceId), (0x32#32, .fCommand), (0x33#32, .fStatus), (0x34#32, .fRevision), (0x35#32, .fProgIf),
   (0x36#32, .fSubclass), (0x37#32, .fBaseclass), (0x38#32, .fCacheline), (0x39#32, .fLatency), (0x3A#32, .fHeaderType),
   (0x3B#32, .fMultifunction), (0x3C#32, .fBist), (0x3D#32, .fCapPtr)]

/-- The words of the status decoders (R73). -/
def Sys2Proof.statusWords : List (Word × Instr) :=
  [(0x40#32, .sIntStatus), (0x41#32, .sCapList), (0x42#32, .s66mhz), (0x43#32, .sFastB2b), (0x44#32, .sMasterDpe), (0x45#32, .sDevsel),
   (0x46#32, .sSigTabort), (0x47#32, .sRcvTabort), (0x48#32, .sRcvMabort), (0x49#32, .sSigSerr), (0x4A#32, .sDetPerr)]

/-- The words of the header reader (R73). -/
def Sys2Proof.headerWords : List (Word × Instr) :=
  [(0x50#32, .cfgIdentity), (0x51#32, .cfgStatus), (0x52#32, .cfgRevClass), (0x53#32, .cfgHeaderType), (0x54#32, .cfgMultifunction),
   (0x55#32, .cfgEndpoint), (0x56#32, .cfgCapPointer)]

/-- The 41 command words without fields (R73, R78). -/
def Sys2Proof.plainWords : List (Word × Instr) := addressWords ++ extractorWords ++ statusWords ++ headerWords

/-- A word is listed when it is a plain word or selects BITS32, BITS16 or BAR_PROBE by mask and match (R69, R73). -/
def Sys2Proof.Listed (w : Word) : Prop :=
  w ∈ plainWords.map Prod.fst ∨ w &&& 0xE0E0FFFF#32 = 0x20#32 ∨ w &&& 0xE0E0FFFF#32 = 0x21#32 ∨
    w &&& 0xFFFFF8FF#32 = 0x60#32

/-- The advance commands and the weight of the unit they advance (R88). -/
def Sys2Proof.advanceWeights : List (Instr × Nat) :=
  [(.advFunction, 1), (.advDevice, 8), (.advBus, 0x100), (.advSegment, 0x10000)]

/-- The status decoders of one bit and their bit (R39, R113 to R123; log entry 6). -/
def Sys2Proof.statusFlags : List (Instr × Nat) :=
  [(.sIntStatus, 3), (.sCapList, 4), (.s66mhz, 5), (.sFastB2b, 7), (.sMasterDpe, 8), (.sSigTabort, 11),
   (.sRcvTabort, 12), (.sRcvMabort, 13), (.sSigSerr, 14), (.sDetPerr, 15)]

/-- The header commands and the offset of their first read (R125 to R131). -/
def Sys2Proof.headerReads : List (Instr × Off) :=
  [(.cfgIdentity, 0x00#12), (.cfgStatus, 0x04#12), (.cfgRevClass, 0x08#12), (.cfgHeaderType, 0x0C#12),
   (.cfgMultifunction, 0x0C#12), (.cfgEndpoint, 0x0C#12), (.cfgCapPointer, 0x04#12)]

/-- R69, R71, R73: every row's words decode to its command, with the fields at their places. -/
def Obligations.ListedWordsDecodeToTheirCommand : Prop :=
  (∀ p ∈ plainWords, decode p.1 = .ok p.2) ∧
  ∀ w : Word,
    (w &&& 0xE0E0FFFF#32 = 0x20#32 → decode w = .ok (.bits32 (w.toNat / 2 ^ 24 % 32) (w.toNat / 2 ^ 16 % 32))) ∧
    (w &&& 0xE0E0FFFF#32 = 0x21#32 → decode w = .ok (.bits16 (w.toNat / 2 ^ 24 % 32) (w.toNat / 2 ^ 16 % 32))) ∧
    (w &&& 0xFFFFF8FF#32 = 0x60#32 → decode w = .ok (.barProbe (w.toNat / 2 ^ 8 % 8)))

/-- R74, R154: a word that is not listed is accepted and completes in the same step with ILLEGAL_COMMAND (3, 7), issues no
transaction, and leaves every latch as it was. -/
def Obligations.UnlistedWordsCompleteAsIllegal : Prop :=
  ∀ (s : State) (p : Pins) (rest : List Pins) (w a b : Word), s.Ready → s.inputs = p :: rest → Presents p w a b →
    ¬ Listed w → ∃ t, step s = .next t ∧ Finished t 3#2 7#4 {} ∧ LatchesKept s t ∧ PortKept s t ∧ t.inputs = rest

/-- R69: decoding the word of a well-formed command gives it back, at every value of its fields. -/
def Obligations.DecodeOfEncodeIsTheCommand : Prop :=
  ∀ i : Instr, i.wellFormed = true → decode (encode i) = .ok i

/-- R69, R70: a word that decodes is the encoding of what it decodes to, which is well formed. -/
def Obligations.DecodedWordIsItsEncoding : Prop :=
  ∀ (w : Word) (i : Instr), decode w = .ok i → i.wellFormed = true ∧ encode i = w

/-- R69: "At most one row matches any word, because the rows differ in OPC." -/
def Obligations.AtMostOneRowMatches : Prop :=
  ∀ (w : Word) (j k : Nat) (a b : OpcodeRow), opcodeRows[j]? = some a → opcodeRows[k]? = some b →
    w &&& a.mask = a.pattern → w &&& b.mask = b.pattern → j = k

/-- Words of R78 and 95_test_vectors.md, read by the host's entry point. -/
def Obligations.SampleWordsDecode : Prop :=
  decodeTableWord 32 0x00000010 = some .addrEncode ∧ decodeTableWord 32 0x00000019 = some .advDevice ∧
  decodeTableWord 32 0x16100020 = some (.bits32 22 16) ∧ decodeTableWord 32 0x0A090021 = some (.bits16 10 9) ∧
  decodeTableWord 32 0x0000003A = some .fHeaderType ∧ decodeTableWord 32 0x00000045 = some .sDevsel ∧
  decodeTableWord 32 0x00000056 = some .cfgCapPointer ∧ decodeTableWord 32 0x00000560 = some (.barProbe 5) ∧
  decodeTableWord 32 0x00000860 = none ∧ decodeTableWord 32 0x00200020 = none

/-! ### Reset, the step and the command port -/

/-- R43, R169: the values of every register and latch right after reset. -/
def Obligations.ResetStateHoldsTheListedValues : Prop :=
  State.reset.fsm = .idle ∧ State.reset.busy = false ∧ State.reset.cmdReady = true ∧
  State.reset.cmdL = none ∧ State.reset.keyL = none ∧ State.reset.offL = none ∧ State.reset.rawL = none ∧
  State.reset.backL = none ∧ Finished State.reset 0#2 0#4 {}

/-- R169, R170: a step with rst = 1 sets all of PCFG's state to R43, accepts no command, and issues no transaction, whatever was in
progress; the trace stays (log entry 10). -/
def Obligations.ResetInputRestoresTheResetValues : Prop :=
  ∀ (s : State) (p : Pins) (rest : List Pins), s.inputs = p :: rest → p.rst = true → p.read = none →
    ∃ t, step s = .next t ∧ Finished t 0#2 0#4 {} ∧ t.cmdL = none ∧ t.keyL = none ∧ t.offL = none ∧ t.rawL = none ∧
      t.backL = none ∧ t.port = none ∧ t.pending = none ∧ t.history = s.history ∧ t.issued = s.issued ∧ t.inputs = rest

/-- R67, R124: in a ready state with a decodable command presented, a step is that command's meaning on the sampled state; without
one, nothing happens. -/
def Obligations.StepRunsThePresentedCommand : Prop :=
  ∀ (s : State) (p : Pins) (rest : List Pins), s.Ready → s.inputs = p :: rest → p.rst = false → p.read = none →
    (p.cmdValid = true → ∀ i, decode p.cmd = .ok i →
      step s = exec i { s with pins := p, inputs := rest, hostData := none }) ∧
    (p.cmdValid = false → step s = .next { s with pins := p, inputs := rest, hostData := none })

/-- R24, R149: while BUSY, a step runs the command in CMD_L. -/
def Obligations.StepRunsTheLatchedCommand : Prop :=
  ∀ (s : State) (p : Pins) (rest : List Pins) (w : Word) (i : Instr), s.BusyAgrees → s.busy = true →
    s.inputs = p :: rest → p.rst = false → p.read = none → s.cmdL = some w → decode w = .ok i →
    step s = exec i { s with pins := p, inputs := rest, hostData := none }

/-- R67, R176: while BUSY, whatever is presented on the command port changes nothing but the signals themselves. -/
def Obligations.BusyIgnoresTheCommandPort : Prop :=
  ∀ (s : State) (p q : Pins) (rest : List Pins), s.Inv → s.busy = true → s.inputs = p :: rest →
    q.rst = p.rst → q.done = p.done → q.read = p.read →
    step { s with inputs := q :: rest } = onNext (fun t => { t with pins := q }) (step s)

/-- R46, R167, R169: while the outstanding transaction is not completed (no completion, or one of another transaction, such as one
that a reset abandoned), PCFG waits and keeps every piece of its state. -/
def Obligations.WaitingKeepsEverything : Prop :=
  ∀ (s : State) (p : Pins) (rest : List Pins), s.Inv → s.port.isSome = true → s.inputs = p :: rest → p.rst = false →
    p.read = none → (∀ c, p.done = some c → c.number + 1 ≠ s.issued) →
    step s = .next { s with pins := p, inputs := rest, hostData := none }

/-- R46: the transaction that follows a completed one is presented in the next step, whatever completion that step brings, and
nothing else changes (that it is the next step and no later one: log entry 4). -/
def Obligations.PendingTransactionIsPresentedNext : Prop :=
  ∀ (s : State) (p : Pins) (rest : List Pins) (x : Transaction), s.Inv → s.pending = some x → s.inputs = p :: rest →
    p.rst = false → p.read = none →
    step s = .next { s with
      port := some x, pending := none, issued := s.issued + 1, history := s.history ++ [.issued x]
      pins := p, inputs := rest, hostData := none }

/-- R51: with a transaction outstanding that is never completed, "The model then has no step for PCFG, and PCFG is stuck." (log
entry 2). -/
def Obligations.StallIsStuck : Prop :=
  ∀ s : State, s.port.isSome = true → s.inputs = [] → step s = .fault .stalled

/-- R15: a read by the host of a result register that holds ⊥ is a fault, in any step. -/
def Obligations.HostReadOfBottomFaults : Prop :=
  ∀ (s : State) (p : Pins) (rest : List Pins), s.inputs = p :: rest →
    (p.read = some .val0 → s.val0 = none → step s = .fault (.readOfBottom .val0)) ∧
    (p.read = some .val1 → s.val1 = none → step s = .fault (.readOfBottom .val1)) ∧
    (p.read = some .val2 → s.val2 = none → step s = .fault (.readOfBottom .val2)) ∧
    (p.read = some .val3 → s.val3 = none → step s = .fault (.readOfBottom .val3)) ∧
    (p.read = some .barKind → s.barKind = none → step s = .fault (.readOfBottom .barKind)) ∧
    (p.read = some .barAddr → s.barAddr = none → step s = .fault (.readOfBottom .barAddr)) ∧
    (p.read = some .barSize → s.barSize = none → step s = .fault (.readOfBottom .barSize)) ∧
    (p.read = some .barPf → s.barPf = none → step s = .fault (.readOfBottom .barPf))

/-- R22, R25 to R32: in every step, also while BUSY, in a completion, an acceptance or a reset, a host read of a register that holds a
value gives that value as it stood before the step's work (log entry 5); BUSY reads 1 while a command runs, and a step that leaves
PCFG BUSY keeps the result registers, so that the host reads the previous command's results. Without a command everything stays. -/
def Obligations.HostReadReturnsTheRegister : Prop :=
  ∀ (s : State) (p : Pins) (rest : List Pins) (r : HostReg) (v : Long), s.inputs = p :: rest → p.read = some r →
    ((r = .busy ∧ v = if s.busy then 1#64 else 0#64) ∨ (r = .outcome ∧ v.toNat = s.outcome.toNat) ∨
      (r = .err ∧ v.toNat = s.err.toNat) ∨
      (r = .val0 ∧ ∃ x, s.val0 = some x ∧ v.toNat = x.toNat) ∨ (r = .val1 ∧ ∃ x, s.val1 = some x ∧ v.toNat = x.toNat) ∨
      (r = .val2 ∧ ∃ x, s.val2 = some x ∧ v.toNat = x.toNat) ∨ (r = .val3 ∧ ∃ x, s.val3 = some x ∧ v.toNat = x.toNat) ∨
      (r = .barKind ∧ ∃ x, s.barKind = some x ∧ v.toNat = x.toNat) ∨ (r = .barAddr ∧ s.barAddr = some v) ∨
      (r = .barSize ∧ s.barSize = some v) ∨ (r = .barPf ∧ ∃ x, s.barPf = some x ∧ v.toNat = x.toNat)) →
    (s.Inv → ∃ t, step s = .next t ∧ t.hostData = some v ∧ (t.busy = true → ResultsKept s t)) ∧
    (s.Ready → p.rst = false → p.cmdValid = false →
      ∃ t, step s = .next t ∧ t.hostData = some v ∧ ResultsKept s t ∧ LatchesKept s t ∧ PortKept s t ∧ t.Ready)

/-- R22, R32, R182: in any step, a read by the host of a register that holds a value changes nothing but the data the host gets
(log entry 5). -/
def Obligations.HostReadsDoNotInfluenceTheStep : Prop :=
  ∀ (s : State) (p : Pins) (rest : List Pins) (r : HostReg) (v : Long), p.read = none → s.readRegister r = some v →
    step { s with inputs := { p with read := some r } :: rest } =
      onNext (fun t => { t with pins := { t.pins with read := some r }, hostData := some v })
        (step { s with inputs := p :: rest })

/-! ### The address unit -/

/-- R83: ADDR_ENCODE packs in-range fields into a key, and answers FIELD_RANGE (3, 4) for any other operands. -/
def Obligations.AddrEncodePacksOrReportsFieldRange : Prop :=
  decode 0x00000010#32 = .ok .addrEncode ∧
  ∀ s : State,
    ((s.pins.opa.toNat < 2 ^ 16 ∧ s.pins.opb.toNat < 2 ^ 24 ∧ s.pins.opb.toNat / 2 ^ 8 % 256 ≤ 31 ∧
        s.pins.opb.toNat / 2 ^ 16 % 256 ≤ 7) →
      CompletesAtOnce .addrEncode s 1#2 0#4
        { val0 := some ((s.pins.opa &&& 0xFFFF#32) <<< 16 ||| (s.pins.opb &&& 0xFF#32) <<< 8 |||
            ((s.pins.opb >>> 8) &&& 0x1F#32) <<< 3 ||| ((s.pins.opb >>> 16) &&& 0x7#32)) }) ∧
    (¬ (s.pins.opa.toNat < 2 ^ 16 ∧ s.pins.opb.toNat < 2 ^ 24 ∧ s.pins.opb.toNat / 2 ^ 8 % 256 ≤ 31 ∧
        s.pins.opb.toNat / 2 ^ 16 % 256 ≤ 7) →
      CompletesAtOnce .addrEncode s 3#2 4#4 {})

/-- R84 to R87: the four accessors. -/
def Obligations.AccessorsExtractTheFieldsOfAKey : Prop :=
  decode 0x00000011#32 = .ok .addrSegment ∧ decode 0x00000012#32 = .ok .addrBus ∧
  decode 0x00000013#32 = .ok .addrDevice ∧ decode 0x00000014#32 = .ok .addrFunction ∧
  ∀ s : State,
    CompletesAtOnce .addrSegment s 1#2 0#4 { val0 := some ((s.pins.opa.extractLsb' 16 16).setWidth 32) } ∧
    CompletesAtOnce .addrBus s 1#2 0#4 { val0 := some ((s.pins.opa.extractLsb' 8 8).setWidth 32) } ∧
    CompletesAtOnce .addrDevice s 1#2 0#4 { val0 := some ((s.pins.opa.extractLsb' 3 5).setWidth 32) } ∧
    CompletesAtOnce .addrFunction s 1#2 0#4 { val0 := some ((s.pins.opa.extractLsb' 0 3).setWidth 32) }

/-- The round-trip law, R82 (the spec's own inference): encoding four fields gives a key whose accessors give them back, and every
key is the encoding of its fields. -/
def Obligations.KeysRoundTrip : Prop :=
  (∀ (s : State) (g : BitVec 16) (b : BitVec 8) (d : BitVec 5) (f : BitVec 3), s.pins.opa = g.setWidth 32 →
    s.pins.opb = b.setWidth 32 ||| d.setWidth 32 <<< 8 ||| f.setWidth 32 <<< 16 →
    ∃ (t : State) (k : Word), exec .addrEncode s = .next t ∧ t.val0 = some k ∧
      ∀ u : State, u.pins.opa = k →
        CompletesAtOnce .addrSegment u 1#2 0#4 { val0 := some (g.setWidth 32) } ∧
        CompletesAtOnce .addrBus u 1#2 0#4 { val0 := some (b.setWidth 32) } ∧
        CompletesAtOnce .addrDevice u 1#2 0#4 { val0 := some (d.setWidth 32) } ∧
        CompletesAtOnce .addrFunction u 1#2 0#4 { val0 := some (f.setWidth 32) }) ∧
  ∀ (s : State) (k : Word), s.pins.opa = k >>> 16 →
    s.pins.opb = ((k >>> 8) &&& 0xFF#32) ||| ((k >>> 3) &&& 0x1F#32) <<< 8 ||| (k &&& 0x7#32) <<< 16 →
    CompletesAtOnce .addrEncode s 1#2 0#4 { val0 := some k }

/-- The ordering law, R81 (the spec's own inference): keys compare, unsigned, as their fields do lexicographically. -/
def Obligations.KeyOrderIsLexicographic : Prop :=
  ∀ (s s' : BitVec 16) (b b' : BitVec 8) (d d' : BitVec 5) (f f' : BitVec 3),
    (packKey s b d f).toNat < (packKey s' b' d' f').toNat ↔
      s.toNat < s'.toNat ∨ (s = s' ∧ (b.toNat < b'.toNat ∨ (b = b' ∧ (d.toNat < d'.toNat ∨ (d = d' ∧ f.toNat < f'.toNat)))))

/-- R89 to R92: the advance commands, with RANGE_EXHAUSTED (3, 1) exactly at the top. -/
def Obligations.AdvanceCommandsCarryOrReportExhaustion : Prop :=
  decode 0x00000018#32 = .ok .advFunction ∧ decode 0x00000019#32 = .ok .advDevice ∧
  decode 0x0000001A#32 = .ok .advBus ∧ decode 0x0000001B#32 = .ok .advSegment ∧
  ∀ s : State,
    (s.pins.opa ≠ 0xFFFFFFFF#32 →
      CompletesAtOnce .advFunction s 1#2 0#4 { val0 := some (s.pins.opa + 1#32) }) ∧
    (s.pins.opa = 0xFFFFFFFF#32 → CompletesAtOnce .advFunction s 3#2 1#4 {}) ∧
    (s.pins.opa.toNat < 0xFFFFFFF8 →
      CompletesAtOnce .advDevice s 1#2 0#4 { val0 := some ((s.pins.opa + 8#32) &&& 0xFFFFFFF8#32) }) ∧
    (0xFFFFFFF8 ≤ s.pins.opa.toNat → CompletesAtOnce .advDevice s 3#2 1#4 {}) ∧
    (s.pins.opa.toNat < 0xFFFFFF00 →
      CompletesAtOnce .advBus s 1#2 0#4 { val0 := some ((s.pins.opa + 0x100#32) &&& 0xFFFFFF00#32) }) ∧
    (0xFFFFFF00 ≤ s.pins.opa.toNat → CompletesAtOnce .advBus s 3#2 1#4 {}) ∧
    (s.pins.opa.toNat < 0xFFFF0000 →
      CompletesAtOnce .advSegment s 1#2 0#4 { val0 := some ((s.pins.opa + 0x10000#32) &&& 0xFFFF0000#32) }) ∧
    (0xFFFF0000 ≤ s.pins.opa.toNat → CompletesAtOnce .advSegment s 3#2 1#4 {})

/-- R88: an advance gives the start of the next unit, the least key above the operand whose lower fields are all zero, and fails
only when there is none. -/
def Obligations.AdvanceGivesTheStartOfTheNextUnit : Prop :=
  ∀ (s : State) (i : Instr) (w : Nat),
    (i, w) ∈ advanceWeights →
    ∃ t, exec i s = .next t ∧
      ((∃ k : Word, t.outcome = 1#2 ∧ t.val0 = some k ∧ s.pins.opa.toNat < k.toNat ∧ w ∣ k.toNat ∧
          ∀ m, w ∣ m → s.pins.opa.toNat < m → k.toNat ≤ m) ∨
        (t.outcome = 3#2 ∧ t.err = 1#4 ∧ t.val0 = none ∧ ∀ m, w ∣ m → s.pins.opa.toNat < m → 2 ^ 32 ≤ m))

/-! ### The field extractor -/

/-- R95: BITS32 gives bits hi:lo of opa, or INVALID_BIT_RANGE (3, 6) when hi < lo. -/
def Obligations.Bits32ExtractsItsRange : Prop :=
  (∀ w : Word, w &&& 0xE0E0FFFF#32 = 0x20#32 →
    decode w = .ok (.bits32 ((w >>> 24) &&& 0x1F#32).toNat ((w >>> 16) &&& 0x1F#32).toNat)) ∧
  ∀ (s : State) (hi lo : Nat), hi < 32 → lo < 32 →
    (hi < lo → CompletesAtOnce (.bits32 hi lo) s 3#2 6#4 {}) ∧
    (lo ≤ hi → ∃ r : Word, CompletesAtOnce (.bits32 hi lo) s 1#2 0#4 { val0 := some r } ∧
      ∀ j, r.getLsbD j = (decide (j ≤ hi - lo) && s.pins.opa.getLsbD (lo + j)))

/-- R96: BITS16 gives bits hi:lo of opa[15:0], or INVALID_BIT_RANGE (3, 6) when hi > 15 or hi < lo. -/
def Obligations.Bits16ExtractsItsRange : Prop :=
  (∀ w : Word, w &&& 0xE0E0FFFF#32 = 0x21#32 →
    decode w = .ok (.bits16 ((w >>> 24) &&& 0x1F#32).toNat ((w >>> 16) &&& 0x1F#32).toNat)) ∧
  ∀ (s : State) (hi lo : Nat), hi < 32 → lo < 32 →
    (15 < hi ∨ hi < lo → CompletesAtOnce (.bits16 hi lo) s 3#2 6#4 {}) ∧
    (lo ≤ hi → hi ≤ 15 → ∃ r : Word, CompletesAtOnce (.bits16 hi lo) s 1#2 0#4 { val0 := some r } ∧
      ∀ j, r.getLsbD j = (decide (j ≤ hi - lo) && s.pins.opa.getLsbD (lo + j)))

/-- R97 to R106: the extractors of the identity, command, status, class, cacheline and latency fields. -/
def Obligations.HeaderFieldExtractorsGiveTheirField : Prop :=
  decode 0x30#32 = .ok .fVendorId ∧ decode 0x31#32 = .ok .fDeviceId ∧ decode 0x32#32 = .ok .fCommand ∧
  decode 0x33#32 = .ok .fStatus ∧ decode 0x34#32 = .ok .fRevision ∧ decode 0x35#32 = .ok .fProgIf ∧
  decode 0x36#32 = .ok .fSubclass ∧ decode 0x37#32 = .ok .fBaseclass ∧ decode 0x38#32 = .ok .fCacheline ∧
  decode 0x39#32 = .ok .fLatency ∧
  ∀ s : State,
    CompletesAtOnce .fVendorId s 1#2 0#4 { val0 := some ((s.pins.opa.extractLsb' 0 16).setWidth 32) } ∧
    CompletesAtOnce .fDeviceId s 1#2 0#4 { val0 := some ((s.pins.opa.extractLsb' 16 16).setWidth 32) } ∧
    CompletesAtOnce .fCommand s 1#2 0#4 { val0 := some ((s.pins.opa.extractLsb' 0 16).setWidth 32) } ∧
    CompletesAtOnce .fStatus s 1#2 0#4 { val0 := some ((s.pins.opa.extractLsb' 16 16).setWidth 32) } ∧
    CompletesAtOnce .fRevision s 1#2 0#4 { val0 := some ((s.pins.opa.extractLsb' 0 8).setWidth 32) } ∧
    CompletesAtOnce .fProgIf s 1#2 0#4 { val0 := some ((s.pins.opa.extractLsb' 8 8).setWidth 32) } ∧
    CompletesAtOnce .fSubclass s 1#2 0#4 { val0 := some ((s.pins.opa.extractLsb' 16 8).setWidth 32) } ∧
    CompletesAtOnce .fBaseclass s 1#2 0#4 { val0 := some ((s.pins.opa.extractLsb' 24 8).setWidth 32) } ∧
    CompletesAtOnce .fCacheline s 1#2 0#4 { val0 := some ((s.pins.opa.extractLsb' 0 8).setWidth 32) } ∧
    CompletesAtOnce .fLatency s 1#2 0#4 { val0 := some ((s.pins.opa.extractLsb' 8 8).setWidth 32) }

/-- R107 to R111: the header type with its kind, the multi-function flag, BIST and the capabilities pointer. -/
def Obligations.HeaderTypeAndByteExtractorsGiveTheirField : Prop :=
  decode 0x3A#32 = .ok .fHeaderType ∧ decode 0x3B#32 = .ok .fMultifunction ∧ decode 0x3C#32 = .ok .fBist ∧
  decode 0x3D#32 = .ok .fCapPtr ∧
  ∀ (s : State) (y : BitVec 7), s.pins.opa.extractLsb' 16 7 = y →
    CompletesAtOnce .fHeaderType s 1#2 0#4
      { val0 := some (y.setWidth 32)
        val1 := some (if y = 0#7 then 0#32 else if y = 1#7 then 1#32 else if y = 2#7 then 2#32 else 3#32) } ∧
    CompletesAtOnce .fMultifunction s 1#2 0#4 { val0 := some (if s.pins.opa.getLsbD 23 then 1#32 else 0#32) } ∧
    CompletesAtOnce .fBist s 1#2 0#4 { val0 := some ((s.pins.opa.extractLsb' 24 8).setWidth 32) } ∧
    CompletesAtOnce .fCapPtr s 1#2 0#4 { val0 := some ((s.pins.opa.extractLsb' 0 8).setWidth 32) }

/-- R112 to R123: the status decoders. The bit positions are the spec's "from general knowledge, not in source" (R39; log entry 6). -/
def Obligations.StatusDecodersGiveTheirField : Prop :=
  decode 0x40#32 = .ok .sIntStatus ∧ decode 0x41#32 = .ok .sCapList ∧ decode 0x42#32 = .ok .s66mhz ∧
  decode 0x43#32 = .ok .sFastB2b ∧ decode 0x44#32 = .ok .sMasterDpe ∧ decode 0x45#32 = .ok .sDevsel ∧
  decode 0x46#32 = .ok .sSigTabort ∧ decode 0x47#32 = .ok .sRcvTabort ∧ decode 0x48#32 = .ok .sRcvMabort ∧
  decode 0x49#32 = .ok .sSigSerr ∧ decode 0x4A#32 = .ok .sDetPerr ∧
  ∀ s : State,
    (∀ p ∈ statusFlags,
      CompletesAtOnce p.1 s 1#2 0#4 { val0 := some (if s.pins.opa.getLsbD p.2 then 1#32 else 0#32) }) ∧
    CompletesAtOnce .sDevsel s 1#2 0#4 { val0 := some ((s.pins.opa.extractLsb' 9 2).setWidth 32) }

/-- R72, R112: the status decoders depend on status bits 3 to 5 and 7 to 15 alone: not on opa[31:16], not on the reserved bits 2:0 and
6 (positions: log entry 6). -/
def Obligations.StatusDecodersIgnoreReservedBits : Prop :=
  ∀ (i : Instr) (s : State) (a : Word), i = .sDevsel ∨ i ∈ statusFlags.map Prod.fst →
    a &&& 0xFFB8#32 = s.pins.opa &&& 0xFFB8#32 →
    ∃ t, exec i s = .next t ∧
      exec i { s with pins := { s.pins with opa := a } } = .next { t with pins := { t.pins with opa := a } }

/-- R22, R33, R94: a command without configuration accesses completes in its step and changes nothing but the result registers. -/
def Obligations.ImmediateCommandsCompleteAndTouchNothingElse : Prop :=
  ∀ (i : Instr) (s : State), accesses i = false →
    ∃ t, exec i s = .next t ∧ t.fsm = .idle ∧ t.busy = false ∧ Untouched s t

/-! ### The header reader -/

/-- R124: acceptance of a header command latches the word, the key and the offset, issues the command's first read, sets BUSY, and
changes no result register. -/
def Obligations.HeaderCommandsAcceptWithOneRead : Prop :=
  ∀ (s : State) (i : Instr) (off : Off), (i, off) ∈ headerReads → s.fsm = .idle →
    ∃ t, exec i s = .next t ∧ t.fsm = .hdrRd0 ∧ t.busy = true ∧ t.cmdL = some s.pins.cmd ∧ t.keyL = some s.pins.opa ∧
      t.offL = some off ∧ t.rawL = s.rawL ∧ t.backL = s.backL ∧ Issues s t (.read s.pins.opa off) ∧ ResultsKept s t ∧
      InputsKept s t

/-- R125 to R130: the step in which a header command's read completes with `v`, after any wait, completes the command. -/
def Obligations.HeaderCommandsCompleteOnTheirRead : Prop :=
  ∀ (s : State) (v : Word), s.fsm = .hdrRd0 → s.completion = some v →
    CompletesOnRead .cfgIdentity s v 1#2 0#4
      { val0 := some ((v.extractLsb' 0 16).setWidth 32), val1 := some ((v.extractLsb' 16 16).setWidth 32) } ∧
    CompletesOnRead .cfgStatus s v 1#2 0#4 { val0 := some ((v.extractLsb' 16 16).setWidth 32) } ∧
    CompletesOnRead .cfgRevClass s v 1#2 0#4
      { val0 := some ((v.extractLsb' 0 8).setWidth 32), val1 := some ((v.extractLsb' 24 8).setWidth 32)
        val2 := some ((v.extractLsb' 16 8).setWidth 32), val3 := some ((v.extractLsb' 8 8).setWidth 32) } ∧
    CompletesOnRead .cfgHeaderType s v 1#2 0#4
      { val0 := some ((v.extractLsb' 16 7).setWidth 32)
        val1 := some (if v.extractLsb' 16 7 = 0#7 then 0#32 else if v.extractLsb' 16 7 = 1#7 then 1#32
          else if v.extractLsb' 16 7 = 2#7 then 2#32 else 3#32) } ∧
    CompletesOnRead .cfgMultifunction s v 1#2 0#4 { val0 := some (if v.getLsbD 23 then 1#32 else 0#32) } ∧
    (v.extractLsb' 16 7 = 0#7 → CompletesOnRead .cfgEndpoint s v 1#2 0#4 {}) ∧
    (v.extractLsb' 16 7 ≠ 0#7 → CompletesOnRead .cfgEndpoint s v 2#2 0#4 {})

/-- R131, with the capability flag at bit 20 ("from general knowledge", log entry 6): CFG_CAP_POINTER in the step its status read
completes, with the read at 0x34 to follow in the next step (log entry 4), and in the step its pointer read completes. -/
def Obligations.CapPointerFollowsTheStatusFlag : Prop :=
  ∀ (s : State) (v key : Word), s.completion = some v → s.keyL = some key →
    (s.fsm = .hdrRd0 → v.getLsbD 20 = false → ∃ t, exec .cfgCapPointer s = .next t ∧
      Finished t 1#2 0#4 { val0 := some 0#32 } ∧ Completes s t (.readDone v) ∧ t.rawL = some v ∧ t.cmdL = s.cmdL ∧
      t.keyL = s.keyL ∧ t.offL = s.offL ∧ t.backL = s.backL ∧ InputsKept s t) ∧
    (s.fsm = .hdrRd0 → v.getLsbD 20 = true → ∃ t, exec .cfgCapPointer s = .next t ∧ t.fsm = .hdrRd1 ∧ t.busy = true ∧
      Prepares s t (.readDone v) (.read key 0x34#12) ∧ t.rawL = some v ∧ t.offL = some 0x34#12 ∧ t.cmdL = s.cmdL ∧
      t.keyL = s.keyL ∧ t.backL = s.backL ∧ ResultsKept s t ∧ InputsKept s t) ∧
    (s.fsm = .hdrRd1 →
      CompletesOnRead .cfgCapPointer s v 1#2 0#4 { val0 := some ((v.extractLsb' 0 8).setWidth 32) })

/-- R125 to R130: each of these commands, presented and answered, makes exactly one read, at its offset, and gives its fields. -/
def Obligations.HeaderCommandsRunWithOneRead : Prop :=
  RunsWithOneRead 0x50#32 0x00#12 (fun _ => 1#2)
    (fun v => { val0 := some ((v.extractLsb' 0 16).setWidth 32), val1 := some ((v.extractLsb' 16 16).setWidth 32) }) ∧
  RunsWithOneRead 0x51#32 0x04#12 (fun _ => 1#2) (fun v => { val0 := some ((v.extractLsb' 16 16).setWidth 32) }) ∧
  RunsWithOneRead 0x52#32 0x08#12 (fun _ => 1#2)
    (fun v => { val0 := some ((v.extractLsb' 0 8).setWidth 32), val1 := some ((v.extractLsb' 24 8).setWidth 32)
                val2 := some ((v.extractLsb' 16 8).setWidth 32), val3 := some ((v.extractLsb' 8 8).setWidth 32) }) ∧
  RunsWithOneRead 0x53#32 0x0C#12 (fun _ => 1#2)
    (fun v => { val0 := some ((v.extractLsb' 16 7).setWidth 32)
                val1 := some (if v.extractLsb' 16 7 = 0#7 then 0#32 else if v.extractLsb' 16 7 = 1#7 then 1#32
                  else if v.extractLsb' 16 7 = 2#7 then 2#32 else 3#32) }) ∧
  RunsWithOneRead 0x54#32 0x0C#12 (fun _ => 1#2)
    (fun v => { val0 := some (if v.getLsbD 23 then 1#32 else 0#32) }) ∧
  RunsWithOneRead 0x55#32 0x0C#12 (fun v => if v.extractLsb' 16 7 = 0#7 then 1#2 else 2#2) (fun _ => {})

/-- R131, with the capability flag at bit 20 ("from general knowledge", log entry 6): with the flag clear one read and the value 0,
with it set a second read at 0x34, presented in the step after (log entry 4), then its bits 7:0. -/
def Obligations.CapPointerRunsGatedByTheStatusFlag : Prop :=
  ∀ (s : State) (p0 p1 q p2 : Pins) (rest : List Pins) (key b v u : Word), s.Ready →
    s.inputs = p0 :: p1 :: q :: p2 :: rest → Presents p0 0x56#32 key b → Answers p1 s.issued v → Passes q →
    Answers p2 (s.issued + 1) u →
    (v.getLsbD 20 = false → ∃ t, s.Reaches 2 t ∧ Finished t 1#2 0#4 { val0 := some 0#32 } ∧ t.rawL = some v ∧
      Appends s t [.issued (.read key 0x04#12), .readDone v]) ∧
    (v.getLsbD 20 = true → ∃ t, s.Reaches 4 t ∧
      Finished t 1#2 0#4 { val0 := some ((u.extractLsb' 0 8).setWidth 32) } ∧ t.rawL = some v ∧ t.offL = some 0x34#12 ∧
      Appends s t [.issued (.read key 0x04#12), .readDone v, .issued (.read key 0x34#12), .readDone u])

/-! ### The BAR probe -/

/-- R134: a slot above 5 is INVALID_SLOT (3, 5) without a transaction; otherwise the raw read is issued at 0x10 + 4*slot. -/
def Obligations.BarProbeAcceptsOrReportsInvalidSlot : Prop :=
  ∀ (s : State) (slot : Nat), s.fsm = .idle →
    (5 < slot → CompletesAtOnce (.barProbe slot) s 3#2 5#4 {}) ∧
    (slot ≤ 5 → ∃ t off, exec (.barProbe slot) s = .next t ∧ off.toNat = 0x10 + 4 * slot ∧ t.fsm = .barRawRd ∧
      t.busy = true ∧ t.cmdL = some s.pins.cmd ∧ t.keyL = some s.pins.opa ∧ t.offL = some off ∧ t.rawL = s.rawL ∧
      t.backL = s.backL ∧ Issues s t (.read s.pins.opa off) ∧ ResultsKept s t ∧ InputsKept s t)

/-- R135, R136, R137: what the raw value decides: an I/O BAR (kind 2), BAR_RESERVED_TYPE (3, 2) without a write, or the all-ones
write, which the port presents in the next step (R46; log entry 4). -/
def Obligations.BarRawReadDecides : Prop :=
  ∀ (s : State) (slot : Nat) (v key : Word) (off : Off), s.fsm = .barRawRd → s.completion = some v → s.keyL = some key →
    s.offL = some off → off.toNat % 4 = 0 → off.toNat < 256 →
    ∃ t, exec (.barProbe slot) s = .next t ∧ t.rawL = some v ∧ t.cmdL = s.cmdL ∧ t.keyL = s.keyL ∧ t.offL = s.offL ∧
      t.backL = s.backL ∧ InputsKept s t ∧
      (v.getLsbD 0 = true → Completes s t (.readDone v) ∧
        Finished t 1#2 0#4 { barKind := some 2#2, barAddr := some ((v &&& 0xFFFFFFFC#32).setWidth 64) }) ∧
      (v.getLsbD 0 = false → v.getLsbD 1 = true → Completes s t (.readDone v) ∧ Finished t 3#2 2#4 {}) ∧
      (v.getLsbD 0 = false → v.getLsbD 1 = false → t.fsm = .barOnesWr ∧ t.busy = true ∧ ResultsKept s t ∧
        Prepares s t (.readDone v) (.write key off 0xFFFFFFFF#32))

/-- R138, R139: after the all-ones write the slot is read back, and after the read-back RAW_L is written back, whatever was read; the
port presents each in the next step (R46; log entry 4). -/
def Obligations.BarReadBackThenRestore : Prop :=
  ∀ (s : State) (slot : Nat) (v key : Word) (off : Off), s.completion = some v → s.keyL = some key →
    s.offL = some off → off.toNat % 4 = 0 → off.toNat < 256 →
    (s.fsm = .barOnesWr → ∃ t, exec (.barProbe slot) s = .next t ∧ t.fsm = .barBackRd ∧ t.busy = true ∧
      Prepares s t .writeDone (.read key off) ∧ LatchesKept s t ∧ ResultsKept s t ∧ InputsKept s t) ∧
    (∀ raw, s.fsm = .barBackRd → s.rawL = some raw → ∃ t, exec (.barProbe slot) s = .next t ∧ t.fsm = .barRestoreWr ∧
      t.busy = true ∧ Prepares s t (.readDone v) (.write key off raw) ∧ t.backL = some v ∧ t.rawL = s.rawL ∧
      t.cmdL = s.cmdL ∧ t.keyL = s.keyL ∧ t.offL = s.offL ∧ ResultsKept s t ∧ InputsKept s t)

/-- R141, R142, R143: after the restore: ABSENT for a read-back of 0, BAR_SIZE_UNDETERMINED (3, 3) for one with bits 31:4 zero, the
Memory32 result, or the upper-half read, which the port presents in the next step (R46; log entry 4). The size is 2^k for the least set bit k of the read-back above bit 3 (R12). -/
def Obligations.BarRestoreDecides : Prop :=
  ∀ (s : State) (slot : Nat) (v key raw back : Word) (off : Off), s.fsm = .barRestoreWr → s.completion = some v →
    s.keyL = some key → s.offL = some off → off.toNat % 4 = 0 → off.toNat < 252 → s.rawL = some raw → s.backL = some back →
    ∃ t, exec (.barProbe slot) s = .next t ∧ InputsKept s t ∧ t.cmdL = s.cmdL ∧ t.keyL = s.keyL ∧ t.rawL = s.rawL ∧
      t.backL = s.backL ∧
      (back = 0#32 → Completes s t .writeDone ∧ Finished t 2#2 0#4 {} ∧ t.offL = s.offL) ∧
      (back ≠ 0#32 → back.toNat < 16 → Completes s t .writeDone ∧ Finished t 3#2 3#4 {} ∧ t.offL = s.offL) ∧
      (16 ≤ back.toNat → raw.extractLsb' 1 2 = 0#2 → Completes s t .writeDone ∧ t.offL = s.offL ∧
        ∃ k, 4 ≤ k ∧ k < 32 ∧ back.getLsbD k = true ∧ (∀ j, 4 ≤ j → j < k → back.getLsbD j = false) ∧
          Finished t 1#2 0#4
            { barKind := some 0#2, barAddr := some ((raw &&& 0xFFFFFFF0#32).setWidth 64)
              barSize := some (BitVec.ofNat 64 (2 ^ k)), barPf := some (raw.extractLsb' 3 1) }) ∧
      (16 ≤ back.toNat → raw.extractLsb' 1 2 ≠ 0#2 → t.fsm = .barUpperRd ∧ t.busy = true ∧ t.offL = some (off + 4#12) ∧
        Prepares s t .writeDone (.read key (off + 4#12)) ∧ ResultsKept s t)

/-- R144: the upper-half read completes a Memory64 result (kind 1), its size from the read-back of the low slot. -/
def Obligations.BarUpperHalfCompletes : Prop :=
  ∀ (s : State) (slot : Nat) (u raw back : Word), s.fsm = .barUpperRd → s.completion = some u → s.rawL = some raw →
    s.backL = some back → 16 ≤ back.toNat →
    ∃ k, 4 ≤ k ∧ k < 32 ∧ back.getLsbD k = true ∧ (∀ j, 4 ≤ j → j < k → back.getLsbD j = false) ∧
      CompletesOnRead (.barProbe slot) s u 1#2 0#4
        { barKind := some 1#2, barAddr := some (u ++ (raw &&& 0xFFFFFFF0#32))
          barSize := some (BitVec.ofNat 64 (2 ^ k)), barPf := some (raw.extractLsb' 3 1) }

/-- R134, R148 (the spec's own inference): a probe of an I/O BAR or of a reserved type takes one read and no write. -/
def Obligations.ProbeWithoutMemoryTypeMakesOneRead : Prop :=
  ∀ (s : State) (slot : Nat) (p0 p1 : Pins) (rest : List Pins) (key b v : Word), s.Ready → slot ≤ 5 →
    s.inputs = p0 :: p1 :: rest → Presents p0 (0x60#32 ||| BitVec.ofNat 32 slot <<< 8) key b → Answers p1 s.issued v →
    (v.getLsbD 0 = true ∨ v.getLsbD 1 = true) →
    ∃ t off, s.Reaches 2 t ∧ off.toNat = 0x10 + 4 * slot ∧
      Appends s t [.issued (.read key off), .readDone v] ∧
      (v.getLsbD 0 = true →
        Finished t 1#2 0#4 { barKind := some 2#2, barAddr := some ((v &&& 0xFFFFFFFC#32).setWidth 64) }) ∧
      (v.getLsbD 0 = false → Finished t 3#2 2#4 {})

/-- R140, R148 (the spec's own inferences), with R141 to R143: every probe of a memory BAR, absent, of undetermined size, 32 or 64 bits
wide, makes the transactions R, W1, R, WR and no other before: the raw value is written back before the command completes, on every
path. Then it completes, or, for a 64-bit BAR with a size, reads the upper half. With each transaction completed in the step after it
was presented this takes eight steps (log entry 4). -/
def Obligations.MemoryProbeRestoresOnEveryPath : Prop :=
  ∀ (s : State) (slot : Nat) (p0 p1 q1 p2 q2 p3 q3 p4 : Pins) (rest : List Pins) (key b raw w back x : Word), s.Ready →
    slot ≤ 5 → s.inputs = p0 :: p1 :: q1 :: p2 :: q2 :: p3 :: q3 :: p4 :: rest →
    Presents p0 (0x60#32 ||| BitVec.ofNat 32 slot <<< 8) key b → Answers p1 s.issued raw → Passes q1 →
    Answers p2 (s.issued + 1) w → Passes q2 → Answers p3 (s.issued + 2) back → Passes q3 → Answers p4 (s.issued + 3) x →
    raw.getLsbD 0 = false → raw.getLsbD 1 = false →
    ∃ t off, s.Reaches 8 t ∧ off.toNat = 0x10 + 4 * slot ∧ t.inputs = rest ∧
      Appends s t [.issued (.read key off), .readDone raw, .issued (.write key off 0xFFFFFFFF#32), .writeDone,
        .issued (.read key off), .readDone back, .issued (.write key off raw), .writeDone] ∧
      (back = 0#32 → Finished t 2#2 0#4 {}) ∧ (back ≠ 0#32 → back.toNat < 16 → Finished t 3#2 3#4 {}) ∧
      (16 ≤ back.toNat → raw.getLsbD 2 = false →
        ∃ k, 4 ≤ k ∧ k < 32 ∧ back.getLsbD k = true ∧ (∀ j, 4 ≤ j → j < k → back.getLsbD j = false) ∧
          Finished t 1#2 0#4
            { barKind := some 0#2, barAddr := some ((raw &&& 0xFFFFFFF0#32).setWidth 64)
              barSize := some (BitVec.ofNat 64 (2 ^ k)), barPf := some (raw.extractLsb' 3 1) }) ∧
      (16 ≤ back.toNat → raw.getLsbD 2 = true → t.fsm = .barUpperRd ∧ t.busy = true ∧ ResultsKept s t ∧
        ∃ up, up.toNat = 0x14 + 4 * slot ∧ t.port = none ∧ t.pending = some (.read key up))

/-- R143, R144, R146, R148 (the spec's own inference): a probe of a 64-bit BAR whose read-back has a bit of 31:4 set makes R, W1, R, WR,
and then reads offset + 4, for every slot up to 5. (With bits 31:4 of the read-back zero it ends after WR, as
MemoryProbeRestoresOnEveryPath says.) With each transaction completed in the step after it was presented this takes ten steps (log
entry 4). -/
def Obligations.Probe64ReadsTheUpperHalfLast : Prop :=
  ∀ (s : State) (slot : Nat) (p0 p1 q1 p2 q2 p3 q3 p4 q4 p5 : Pins) (rest : List Pins) (key b raw w back x u : Word),
    s.Ready → slot ≤ 5 → s.inputs = p0 :: p1 :: q1 :: p2 :: q2 :: p3 :: q3 :: p4 :: q4 :: p5 :: rest →
    Presents p0 (0x60#32 ||| BitVec.ofNat 32 slot <<< 8) key b → Answers p1 s.issued raw → Passes q1 →
    Answers p2 (s.issued + 1) w → Passes q2 → Answers p3 (s.issued + 2) back → Passes q3 → Answers p4 (s.issued + 3) x →
    Passes q4 → Answers p5 (s.issued + 4) u → raw.getLsbD 0 = false → raw.extractLsb' 1 2 = 2#2 → 16 ≤ back.toNat →
    ∃ t off up k, s.Reaches 10 t ∧ off.toNat = 0x10 + 4 * slot ∧ up.toNat = 0x14 + 4 * slot ∧
      Appends s t [.issued (.read key off), .readDone raw, .issued (.write key off 0xFFFFFFFF#32), .writeDone,
        .issued (.read key off), .readDone back, .issued (.write key off raw), .writeDone, .issued (.read key up),
        .readDone u] ∧
      4 ≤ k ∧ k < 32 ∧ back.getLsbD k = true ∧ (∀ j, 4 ≤ j → j < k → back.getLsbD j = false) ∧
      Finished t 1#2 0#4
        { barKind := some 1#2, barAddr := some (u ++ (raw &&& 0xFFFFFFF0#32))
          barSize := some (BitVec.ofNat 64 (2 ^ k)), barPf := some (raw.extractLsb' 3 1) }

/-- R150 (the spec's own inference): beyond the test for 0, the type bits of the read-back never matter. -/
def Obligations.ReadBackTypeBitsAreIgnored : Prop :=
  ∀ (s : State) (slot : Nat) (x y : Word), x &&& 0xFFFFFFF0#32 = y &&& 0xFFFFFFF0#32 → x ≠ 0#32 → y ≠ 0#32 →
    s.fsm = .barRestoreWr ∨ s.fsm = .barUpperRd →
    exec (.barProbe slot) { s with backL := some y } =
      onNext (fun t => { t with backL := some y }) (exec (.barProbe slot) { s with backL := some x })

/-- R24, R32, R38: what a command with configuration accesses leaves alone in each of its steps. -/
def Obligations.AccessingCommandsKeepTheRest : Prop :=
  ∀ (i : Instr) (s t : State), accesses i = true → exec i s = .next t →
    InputsKept s t ∧ (t.busy = true → ResultsKept s t) ∧ s.history <+: t.history ∧
    (s.fsm ≠ .idle → t.cmdL = s.cmdL ∧ t.keyL = s.keyL) ∧
    (s.fsm ≠ .idle → s.fsm ≠ .hdrRd0 → s.fsm ≠ .barRestoreWr → t.offL = s.offL) ∧
    (s.fsm ≠ .hdrRd0 → s.fsm ≠ .barRawRd → t.rawL = s.rawL) ∧ (s.fsm ≠ .barBackRd → t.backL = s.backL)

/-! ### Whole-machine rules -/

/-- The reset state meets the invariants. -/
def Obligations.ResetStateMeetsTheInvariants : Prop :=
  State.reset.Inv ∧ State.reset.ProbeTraced ∧ State.reset.ResultsAgree ∧ State.reset.SizeLegal ∧ State.reset.OffsetsLegal

/-- R22, R23: every step keeps "BUSY = 1 exactly when fsm ≠ IDLE". -/
def Obligations.StepKeepsBusyAgreement : Prop :=
  ∀ s t : State, s.BusyAgrees → step s = .next t → t.BusyAgrees

/-- R24, R46, R124, R131, R134 to R143: every step keeps the agreement of the sequencer, the latches and the port. -/
def Obligations.StepKeepsTheSequencerInvariant : Prop :=
  ∀ s t : State, s.Inv → step s = .next t → t.Inv

/-- R140, R148 (the spec's own inferences): every step keeps the trace of a running probe: the read, the all-ones write, the
read-back, the write of RAW_L, the upper-half read, in this order and with nothing between. -/
def Obligations.StepKeepsTheProbeTrace : Prop :=
  ∀ s t : State, s.Inv → s.ProbeTraced → step s = .next t → t.ProbeTraced

/-- R14, R26 to R31: every step keeps what the result registers hold together: an error code exactly with ERROR and at most 7, no
value without OK, R_BAR_KIND never 3, the other BAR registers with their kinds. -/
def Obligations.StepKeepsResultsAgreeing : Prop :=
  ∀ s t : State, s.ResultsAgree → step s = .next t → t.ResultsAgree

/-- R145 (the spec's own inference): every step keeps R_BAR_SIZE, if it holds a value, a power of two from 2^4 to 2^31. -/
def Obligations.StepKeepsBarSizeAPowerOfTwo : Prop :=
  ∀ s t : State, s.Inv → s.SizeLegal → step s = .next t → t.SizeLegal

/-- R38, R47, R58: every step issues only transactions PCFG may issue: the listed offsets, writes to BAR slots alone. -/
def Obligations.StepIssuesOnlyListedOffsets : Prop :=
  ∀ s t : State, s.Inv → s.OffsetsLegal → step s = .next t → t.OffsetsLegal

/-- R32: the result registers change in no step but a completion or a reset. -/
def Obligations.ResultsChangeOnlyAtCompletion : Prop :=
  ∀ s t : State, step s = .next t → t.pins.rst = false →
    t.busy = true ∨ (s.busy = false ∧ t.pins.cmdValid = false) → ResultsKept s t

/-- R46, R61: a step issues at most one transaction, only when none is outstanding, and never in the step in which one completes; the
trace grows by that one event. -/
def Obligations.AtMostOneTransactionOutstanding : Prop :=
  ∀ s t : State, s.Inv → step s = .next t →
    t.history = s.history ∨
    (∃ x, s.port = none ∧ Appends s t [.issued x] ∧ t.port = some x) ∨
    (∃ e, s.port.isSome = true ∧ (∀ x, e ≠ .issued x) ∧ Appends s t [e] ∧ t.port = none)

/-- R49, R166: PCFG's own step does not depend on the trace. -/
def Obligations.TheTraceDoesNotInfluenceTheStep : Prop :=
  ∀ (s t : State) (h : List Event), step s = .next t →
    ∃ es, t.history = s.history ++ es ∧ step { s with history := h } = .next { t with history := h ++ es }

/-- R51, R153: "No condition is fatal": from a state that meets the invariant every step answers a next state, unless the host reads
⊥ or the collaborator has no completion left to give. -/
def Obligations.NoConditionIsFatal : Prop :=
  ∀ s : State, s.Inv →
    (∀ p rest, s.inputs = p :: rest → p.read = none → ∃ t, step s = .next t) ∧
    (∀ f, step s = .fault f → f = .stalled ∨ ∃ r, f = .readOfBottom r) ∧ ∀ r, step s ≠ .refused r

/-- R6, R47; 93_implementation_defined.md U1: CFG_SPACE_BYTES is 256 or 4096, and a transaction goes to the port, at once or in the next
step (log entry 4), exactly when its offset is a multiple of 4 below it, and is refused otherwise. -/
def Obligations.PortContractDecidesIssue : Prop :=
  (Config.cfgSpaceBytes = 256 ∨ Config.cfgSpaceBytes = 4096) ∧
  ∀ (s : State) (x : Transaction) (f : Fsm),
    (x.offset.toNat % 4 = 0 ∧ x.offset.toNat < Config.cfgSpaceBytes →
      (∃ t, s.issue x f = .next t ∧ t.fsm = f ∧ Issues s t x ∧ LatchesKept s t ∧ ResultsKept s t ∧ InputsKept s t) ∧
      ∃ t, s.issueNext x f = .next t ∧ t.fsm = f ∧ t.pending = some x ∧ t.port = s.port ∧ t.issued = s.issued ∧
        t.history = s.history ∧ LatchesKept s t ∧ ResultsKept s t ∧ InputsKept s t) ∧
    (¬ (x.offset.toNat % 4 = 0 ∧ x.offset.toNat < Config.cfgSpaceBytes) →
      s.issue x f = .refused (.configOffset x.offset) ∧ s.issueNext x f = .refused (.configOffset x.offset))
end

