-- ==== Sys2Proof/Laws/Decode.lean ====
section
/-! SUPPORT. What decoding answers, by the row of the opcode map that a word selects. -/

namespace Sys2Proof

theorem decode_ok {w : Word} {i : Instr} (h : decode w = .ok i) : ∃ r ∈ opcodeRows, r.selects w = true ∧ r.build w = i := by
  unfold decode at h
  split at h
  · rename_i r hr
    injection h with h
    exact ⟨r, List.mem_of_find?_eq_some hr, by simpa using List.find?_some hr, h⟩
  · cases h

theorem decode_error {w : Word} {e : Illegal} (h : decode w = .error e) : ∀ r ∈ opcodeRows, r.selects w = false := by
  unfold decode at h
  split at h
  · cases h
  · rename_i hn
    simpa using hn

theorem and_ones (w : Word) : w &&& 0xFFFFFFFF#32 = w := BitVec.and_allOnes

/-- Every mask covers OPC, and no two rows have the same OPC: what keeps the rows apart (R69). -/
theorem opcodeRows_opc : opcodeRows.Pairwise (fun a b => opcField a.pattern ≠ opcField b.pattern) ∧
    ∀ r ∈ opcodeRows, r.mask &&& 0xFF#32 = 0xFF#32 := by
  decide

end Sys2Proof
end

