-- ==== Sys2Proof/Laws/State.lean ====
section
/-! SUPPORT. What each update of the state does to each field, so that no proof unfolds a record update. -/

namespace Sys2Proof.Machine

variable (s : State)

@[simp] theorem State.goto_fsm (f : Fsm) : (s.goto f).fsm = f := rfl
@[simp] theorem State.goto_busy (f : Fsm) : (s.goto f).busy = (f != .idle) := rfl
@[simp] theorem State.goto_cmdL (f : Fsm) : (s.goto f).cmdL = s.cmdL := rfl
@[simp] theorem State.goto_keyL (f : Fsm) : (s.goto f).keyL = s.keyL := rfl
@[simp] theorem State.goto_offL (f : Fsm) : (s.goto f).offL = s.offL := rfl
@[simp] theorem State.goto_rawL (f : Fsm) : (s.goto f).rawL = s.rawL := rfl
@[simp] theorem State.goto_backL (f : Fsm) : (s.goto f).backL = s.backL := rfl
@[simp] theorem State.goto_outcome (f : Fsm) : (s.goto f).outcome = s.outcome := rfl
@[simp] theorem State.goto_err (f : Fsm) : (s.goto f).err = s.err := rfl
@[simp] theorem State.goto_val0 (f : Fsm) : (s.goto f).val0 = s.val0 := rfl
@[simp] theorem State.goto_val1 (f : Fsm) : (s.goto f).val1 = s.val1 := rfl
@[simp] theorem State.goto_val2 (f : Fsm) : (s.goto f).val2 = s.val2 := rfl
@[simp] theorem State.goto_val3 (f : Fsm) : (s.goto f).val3 = s.val3 := rfl
@[simp] theorem State.goto_barKind (f : Fsm) : (s.goto f).barKind = s.barKind := rfl
@[simp] theorem State.goto_barAddr (f : Fsm) : (s.goto f).barAddr = s.barAddr := rfl
@[simp] theorem State.goto_barSize (f : Fsm) : (s.goto f).barSize = s.barSize := rfl
@[simp] theorem State.goto_barPf (f : Fsm) : (s.goto f).barPf = s.barPf := rfl
@[simp] theorem State.goto_port (f : Fsm) : (s.goto f).port = s.port := rfl
@[simp] theorem State.goto_pending (f : Fsm) : (s.goto f).pending = s.pending := rfl
@[simp] theorem State.goto_issued (f : Fsm) : (s.goto f).issued = s.issued := rfl
@[simp] theorem State.goto_history (f : Fsm) : (s.goto f).history = s.history := rfl
@[simp] theorem State.goto_pins (f : Fsm) : (s.goto f).pins = s.pins := rfl
@[simp] theorem State.goto_inputs (f : Fsm) : (s.goto f).inputs = s.inputs := rfl
@[simp] theorem State.goto_hostData (f : Fsm) : (s.goto f).hostData = s.hostData := rfl

@[simp] theorem State.finish_fsm (o : CmdOutcome) (e : BitVec 4) (r : Results) : (s.finish o e r).fsm = .idle := rfl
@[simp] theorem State.finish_busy (o : CmdOutcome) (e : BitVec 4) (r : Results) : (s.finish o e r).busy = false := rfl
@[simp] theorem State.finish_cmdL (o : CmdOutcome) (e : BitVec 4) (r : Results) : (s.finish o e r).cmdL = s.cmdL := rfl
@[simp] theorem State.finish_keyL (o : CmdOutcome) (e : BitVec 4) (r : Results) : (s.finish o e r).keyL = s.keyL := rfl
@[simp] theorem State.finish_offL (o : CmdOutcome) (e : BitVec 4) (r : Results) : (s.finish o e r).offL = s.offL := rfl
@[simp] theorem State.finish_rawL (o : CmdOutcome) (e : BitVec 4) (r : Results) : (s.finish o e r).rawL = s.rawL := rfl
@[simp] theorem State.finish_backL (o : CmdOutcome) (e : BitVec 4) (r : Results) : (s.finish o e r).backL = s.backL := rfl
@[simp] theorem State.finish_outcome (o : CmdOutcome) (e : BitVec 4) (r : Results) : (s.finish o e r).outcome = outcomeCode o := rfl
@[simp] theorem State.finish_err (o : CmdOutcome) (e : BitVec 4) (r : Results) : (s.finish o e r).err = e := rfl
@[simp] theorem State.finish_val0 (o : CmdOutcome) (e : BitVec 4) (r : Results) : (s.finish o e r).val0 = r.val0 := rfl
@[simp] theorem State.finish_val1 (o : CmdOutcome) (e : BitVec 4) (r : Results) : (s.finish o e r).val1 = r.val1 := rfl
@[simp] theorem State.finish_val2 (o : CmdOutcome) (e : BitVec 4) (r : Results) : (s.finish o e r).val2 = r.val2 := rfl
@[simp] theorem State.finish_val3 (o : CmdOutcome) (e : BitVec 4) (r : Results) : (s.finish o e r).val3 = r.val3 := rfl
@[simp] theorem State.finish_barKind (o : CmdOutcome) (e : BitVec 4) (r : Results) : (s.finish o e r).barKind = r.barKind := rfl
@[simp] theorem State.finish_barAddr (o : CmdOutcome) (e : BitVec 4) (r : Results) : (s.finish o e r).barAddr = r.barAddr := rfl
@[simp] theorem State.finish_barSize (o : CmdOutcome) (e : BitVec 4) (r : Results) : (s.finish o e r).barSize = r.barSize := rfl
@[simp] theorem State.finish_barPf (o : CmdOutcome) (e : BitVec 4) (r : Results) : (s.finish o e r).barPf = r.barPf := rfl
@[simp] theorem State.finish_port (o : CmdOutcome) (e : BitVec 4) (r : Results) : (s.finish o e r).port = s.port := rfl
@[simp] theorem State.finish_pending (o : CmdOutcome) (e : BitVec 4) (r : Results) : (s.finish o e r).pending = s.pending := rfl
@[simp] theorem State.finish_issued (o : CmdOutcome) (e : BitVec 4) (r : Results) : (s.finish o e r).issued = s.issued := rfl
@[simp] theorem State.finish_history (o : CmdOutcome) (e : BitVec 4) (r : Results) : (s.finish o e r).history = s.history := rfl
@[simp] theorem State.finish_pins (o : CmdOutcome) (e : BitVec 4) (r : Results) : (s.finish o e r).pins = s.pins := rfl
@[simp] theorem State.finish_inputs (o : CmdOutcome) (e : BitVec 4) (r : Results) : (s.finish o e r).inputs = s.inputs := rfl
@[simp] theorem State.finish_hostData (o : CmdOutcome) (e : BitVec 4) (r : Results) : (s.finish o e r).hostData = s.hostData := rfl

@[simp] theorem State.applyReset_fsm : (s.applyReset).fsm = Fsm.idle := rfl
@[simp] theorem State.applyReset_busy : (s.applyReset).busy = false := rfl
@[simp] theorem State.applyReset_cmdL : (s.applyReset).cmdL = none := rfl
@[simp] theorem State.applyReset_keyL : (s.applyReset).keyL = none := rfl
@[simp] theorem State.applyReset_offL : (s.applyReset).offL = none := rfl
@[simp] theorem State.applyReset_rawL : (s.applyReset).rawL = none := rfl
@[simp] theorem State.applyReset_backL : (s.applyReset).backL = none := rfl
@[simp] theorem State.applyReset_outcome : (s.applyReset).outcome = 0#2 := rfl
@[simp] theorem State.applyReset_err : (s.applyReset).err = 0#4 := rfl
@[simp] theorem State.applyReset_val0 : (s.applyReset).val0 = none := rfl
@[simp] theorem State.applyReset_val1 : (s.applyReset).val1 = none := rfl
@[simp] theorem State.applyReset_val2 : (s.applyReset).val2 = none := rfl
@[simp] theorem State.applyReset_val3 : (s.applyReset).val3 = none := rfl
@[simp] theorem State.applyReset_barKind : (s.applyReset).barKind = none := rfl
@[simp] theorem State.applyReset_barAddr : (s.applyReset).barAddr = none := rfl
@[simp] theorem State.applyReset_barSize : (s.applyReset).barSize = none := rfl
@[simp] theorem State.applyReset_barPf : (s.applyReset).barPf = none := rfl
@[simp] theorem State.applyReset_port : (s.applyReset).port = none := rfl
@[simp] theorem State.applyReset_pending : (s.applyReset).pending = none := rfl
@[simp] theorem State.applyReset_issued : (s.applyReset).issued = s.issued := rfl
@[simp] theorem State.applyReset_history : (s.applyReset).history = s.history := rfl
@[simp] theorem State.applyReset_pins : (s.applyReset).pins = s.pins := rfl
@[simp] theorem State.applyReset_inputs : (s.applyReset).inputs = s.inputs := rfl
@[simp] theorem State.applyReset_hostData : (s.applyReset).hostData = s.hostData := rfl

@[simp] theorem State.present_fsm (t : Transaction) : (s.present t).fsm = s.fsm := rfl
@[simp] theorem State.present_busy (t : Transaction) : (s.present t).busy = s.busy := rfl
@[simp] theorem State.present_cmdL (t : Transaction) : (s.present t).cmdL = s.cmdL := rfl
@[simp] theorem State.present_keyL (t : Transaction) : (s.present t).keyL = s.keyL := rfl
@[simp] theorem State.present_offL (t : Transaction) : (s.present t).offL = s.offL := rfl
@[simp] theorem State.present_rawL (t : Transaction) : (s.present t).rawL = s.rawL := rfl
@[simp] theorem State.present_backL (t : Transaction) : (s.present t).backL = s.backL := rfl
@[simp] theorem State.present_outcome (t : Transaction) : (s.present t).outcome = s.outcome := rfl
@[simp] theorem State.present_err (t : Transaction) : (s.present t).err = s.err := rfl
@[simp] theorem State.present_val0 (t : Transaction) : (s.present t).val0 = s.val0 := rfl
@[simp] theorem State.present_val1 (t : Transaction) : (s.present t).val1 = s.val1 := rfl
@[simp] theorem State.present_val2 (t : Transaction) : (s.present t).val2 = s.val2 := rfl
@[simp] theorem State.present_val3 (t : Transaction) : (s.present t).val3 = s.val3 := rfl
@[simp] theorem State.present_barKind (t : Transaction) : (s.present t).barKind = s.barKind := rfl
@[simp] theorem State.present_barAddr (t : Transaction) : (s.present t).barAddr = s.barAddr := rfl
@[simp] theorem State.present_barSize (t : Transaction) : (s.present t).barSize = s.barSize := rfl
@[simp] theorem State.present_barPf (t : Transaction) : (s.present t).barPf = s.barPf := rfl
@[simp] theorem State.present_port (t : Transaction) : (s.present t).port = some t := rfl
@[simp] theorem State.present_pending (t : Transaction) : (s.present t).pending = none := rfl
@[simp] theorem State.present_issued (t : Transaction) : (s.present t).issued = s.issued + 1 := rfl
@[simp] theorem State.present_history (t : Transaction) : (s.present t).history = s.history ++ [.issued t] := rfl
@[simp] theorem State.present_pins (t : Transaction) : (s.present t).pins = s.pins := rfl
@[simp] theorem State.present_inputs (t : Transaction) : (s.present t).inputs = s.inputs := rfl
@[simp] theorem State.present_hostData (t : Transaction) : (s.present t).hostData = s.hostData := rfl

@[simp] theorem State.prepare_fsm (x : Transaction) (f : Fsm) : (s.prepare x f).fsm = f := rfl
@[simp] theorem State.prepare_busy (x : Transaction) (f : Fsm) : (s.prepare x f).busy = (f != .idle) := rfl
@[simp] theorem State.prepare_cmdL (x : Transaction) (f : Fsm) : (s.prepare x f).cmdL = s.cmdL := rfl
@[simp] theorem State.prepare_keyL (x : Transaction) (f : Fsm) : (s.prepare x f).keyL = s.keyL := rfl
@[simp] theorem State.prepare_offL (x : Transaction) (f : Fsm) : (s.prepare x f).offL = s.offL := rfl
@[simp] theorem State.prepare_rawL (x : Transaction) (f : Fsm) : (s.prepare x f).rawL = s.rawL := rfl
@[simp] theorem State.prepare_backL (x : Transaction) (f : Fsm) : (s.prepare x f).backL = s.backL := rfl
@[simp] theorem State.prepare_outcome (x : Transaction) (f : Fsm) : (s.prepare x f).outcome = s.outcome := rfl
@[simp] theorem State.prepare_err (x : Transaction) (f : Fsm) : (s.prepare x f).err = s.err := rfl
@[simp] theorem State.prepare_val0 (x : Transaction) (f : Fsm) : (s.prepare x f).val0 = s.val0 := rfl
@[simp] theorem State.prepare_val1 (x : Transaction) (f : Fsm) : (s.prepare x f).val1 = s.val1 := rfl
@[simp] theorem State.prepare_val2 (x : Transaction) (f : Fsm) : (s.prepare x f).val2 = s.val2 := rfl
@[simp] theorem State.prepare_val3 (x : Transaction) (f : Fsm) : (s.prepare x f).val3 = s.val3 := rfl
@[simp] theorem State.prepare_barKind (x : Transaction) (f : Fsm) : (s.prepare x f).barKind = s.barKind := rfl
@[simp] theorem State.prepare_barAddr (x : Transaction) (f : Fsm) : (s.prepare x f).barAddr = s.barAddr := rfl
@[simp] theorem State.prepare_barSize (x : Transaction) (f : Fsm) : (s.prepare x f).barSize = s.barSize := rfl
@[simp] theorem State.prepare_barPf (x : Transaction) (f : Fsm) : (s.prepare x f).barPf = s.barPf := rfl
@[simp] theorem State.prepare_port (x : Transaction) (f : Fsm) : (s.prepare x f).port = s.port := rfl
@[simp] theorem State.prepare_pending (x : Transaction) (f : Fsm) : (s.prepare x f).pending = some x := rfl
@[simp] theorem State.prepare_issued (x : Transaction) (f : Fsm) : (s.prepare x f).issued = s.issued := rfl
@[simp] theorem State.prepare_history (x : Transaction) (f : Fsm) : (s.prepare x f).history = s.history := rfl
@[simp] theorem State.prepare_pins (x : Transaction) (f : Fsm) : (s.prepare x f).pins = s.pins := rfl
@[simp] theorem State.prepare_inputs (x : Transaction) (f : Fsm) : (s.prepare x f).inputs = s.inputs := rfl
@[simp] theorem State.prepare_hostData (x : Transaction) (f : Fsm) : (s.prepare x f).hostData = s.hostData := rfl

@[simp] theorem State.retire_fsm (e : Event) : (s.retire e).fsm = s.fsm := rfl
@[simp] theorem State.retire_busy (e : Event) : (s.retire e).busy = s.busy := rfl
@[simp] theorem State.retire_cmdL (e : Event) : (s.retire e).cmdL = s.cmdL := rfl
@[simp] theorem State.retire_keyL (e : Event) : (s.retire e).keyL = s.keyL := rfl
@[simp] theorem State.retire_offL (e : Event) : (s.retire e).offL = s.offL := rfl
@[simp] theorem State.retire_rawL (e : Event) : (s.retire e).rawL = s.rawL := rfl
@[simp] theorem State.retire_backL (e : Event) : (s.retire e).backL = s.backL := rfl
@[simp] theorem State.retire_outcome (e : Event) : (s.retire e).outcome = s.outcome := rfl
@[simp] theorem State.retire_err (e : Event) : (s.retire e).err = s.err := rfl
@[simp] theorem State.retire_val0 (e : Event) : (s.retire e).val0 = s.val0 := rfl
@[simp] theorem State.retire_val1 (e : Event) : (s.retire e).val1 = s.val1 := rfl
@[simp] theorem State.retire_val2 (e : Event) : (s.retire e).val2 = s.val2 := rfl
@[simp] theorem State.retire_val3 (e : Event) : (s.retire e).val3 = s.val3 := rfl
@[simp] theorem State.retire_barKind (e : Event) : (s.retire e).barKind = s.barKind := rfl
@[simp] theorem State.retire_barAddr (e : Event) : (s.retire e).barAddr = s.barAddr := rfl
@[simp] theorem State.retire_barSize (e : Event) : (s.retire e).barSize = s.barSize := rfl
@[simp] theorem State.retire_barPf (e : Event) : (s.retire e).barPf = s.barPf := rfl
@[simp] theorem State.retire_port (e : Event) : (s.retire e).port = none := rfl
@[simp] theorem State.retire_pending (e : Event) : (s.retire e).pending = s.pending := rfl
@[simp] theorem State.retire_issued (e : Event) : (s.retire e).issued = s.issued := rfl
@[simp] theorem State.retire_history (e : Event) : (s.retire e).history = s.history ++ [e] := rfl
@[simp] theorem State.retire_pins (e : Event) : (s.retire e).pins = s.pins := rfl
@[simp] theorem State.retire_inputs (e : Event) : (s.retire e).inputs = s.inputs := rfl
@[simp] theorem State.retire_hostData (e : Event) : (s.retire e).hostData = s.hostData := rfl

@[simp] theorem State.latchCommand_fsm (off : Off) : (s.latchCommand off).fsm = s.fsm := rfl
@[simp] theorem State.latchCommand_busy (off : Off) : (s.latchCommand off).busy = s.busy := rfl
@[simp] theorem State.latchCommand_cmdL (off : Off) : (s.latchCommand off).cmdL = some s.pins.cmd := rfl
@[simp] theorem State.latchCommand_keyL (off : Off) : (s.latchCommand off).keyL = some s.pins.opa := rfl
@[simp] theorem State.latchCommand_offL (off : Off) : (s.latchCommand off).offL = some off := rfl
@[simp] theorem State.latchCommand_rawL (off : Off) : (s.latchCommand off).rawL = s.rawL := rfl
@[simp] theorem State.latchCommand_backL (off : Off) : (s.latchCommand off).backL = s.backL := rfl
@[simp] theorem State.latchCommand_outcome (off : Off) : (s.latchCommand off).outcome = s.outcome := rfl
@[simp] theorem State.latchCommand_err (off : Off) : (s.latchCommand off).err = s.err := rfl
@[simp] theorem State.latchCommand_val0 (off : Off) : (s.latchCommand off).val0 = s.val0 := rfl
@[simp] theorem State.latchCommand_val1 (off : Off) : (s.latchCommand off).val1 = s.val1 := rfl
@[simp] theorem State.latchCommand_val2 (off : Off) : (s.latchCommand off).val2 = s.val2 := rfl
@[simp] theorem State.latchCommand_val3 (off : Off) : (s.latchCommand off).val3 = s.val3 := rfl
@[simp] theorem State.latchCommand_barKind (off : Off) : (s.latchCommand off).barKind = s.barKind := rfl
@[simp] theorem State.latchCommand_barAddr (off : Off) : (s.latchCommand off).barAddr = s.barAddr := rfl
@[simp] theorem State.latchCommand_barSize (off : Off) : (s.latchCommand off).barSize = s.barSize := rfl
@[simp] theorem State.latchCommand_barPf (off : Off) : (s.latchCommand off).barPf = s.barPf := rfl
@[simp] theorem State.latchCommand_port (off : Off) : (s.latchCommand off).port = s.port := rfl
@[simp] theorem State.latchCommand_pending (off : Off) : (s.latchCommand off).pending = s.pending := rfl
@[simp] theorem State.latchCommand_issued (off : Off) : (s.latchCommand off).issued = s.issued := rfl
@[simp] theorem State.latchCommand_history (off : Off) : (s.latchCommand off).history = s.history := rfl
@[simp] theorem State.latchCommand_pins (off : Off) : (s.latchCommand off).pins = s.pins := rfl
@[simp] theorem State.latchCommand_inputs (off : Off) : (s.latchCommand off).inputs = s.inputs := rfl
@[simp] theorem State.latchCommand_hostData (off : Off) : (s.latchCommand off).hostData = s.hostData := rfl

@[simp] theorem State.latchOff_fsm (off : Off) : (s.latchOff off).fsm = s.fsm := rfl
@[simp] theorem State.latchOff_busy (off : Off) : (s.latchOff off).busy = s.busy := rfl
@[simp] theorem State.latchOff_cmdL (off : Off) : (s.latchOff off).cmdL = s.cmdL := rfl
@[simp] theorem State.latchOff_keyL (off : Off) : (s.latchOff off).keyL = s.keyL := rfl
@[simp] theorem State.latchOff_offL (off : Off) : (s.latchOff off).offL = some off := rfl
@[simp] theorem State.latchOff_rawL (off : Off) : (s.latchOff off).rawL = s.rawL := rfl
@[simp] theorem State.latchOff_backL (off : Off) : (s.latchOff off).backL = s.backL := rfl
@[simp] theorem State.latchOff_outcome (off : Off) : (s.latchOff off).outcome = s.outcome := rfl
@[simp] theorem State.latchOff_err (off : Off) : (s.latchOff off).err = s.err := rfl
@[simp] theorem State.latchOff_val0 (off : Off) : (s.latchOff off).val0 = s.val0 := rfl
@[simp] theorem State.latchOff_val1 (off : Off) : (s.latchOff off).val1 = s.val1 := rfl
@[simp] theorem State.latchOff_val2 (off : Off) : (s.latchOff off).val2 = s.val2 := rfl
@[simp] theorem State.latchOff_val3 (off : Off) : (s.latchOff off).val3 = s.val3 := rfl
@[simp] theorem State.latchOff_barKind (off : Off) : (s.latchOff off).barKind = s.barKind := rfl
@[simp] theorem State.latchOff_barAddr (off : Off) : (s.latchOff off).barAddr = s.barAddr := rfl
@[simp] theorem State.latchOff_barSize (off : Off) : (s.latchOff off).barSize = s.barSize := rfl
@[simp] theorem State.latchOff_barPf (off : Off) : (s.latchOff off).barPf = s.barPf := rfl
@[simp] theorem State.latchOff_port (off : Off) : (s.latchOff off).port = s.port := rfl
@[simp] theorem State.latchOff_pending (off : Off) : (s.latchOff off).pending = s.pending := rfl
@[simp] theorem State.latchOff_issued (off : Off) : (s.latchOff off).issued = s.issued := rfl
@[simp] theorem State.latchOff_history (off : Off) : (s.latchOff off).history = s.history := rfl
@[simp] theorem State.latchOff_pins (off : Off) : (s.latchOff off).pins = s.pins := rfl
@[simp] theorem State.latchOff_inputs (off : Off) : (s.latchOff off).inputs = s.inputs := rfl
@[simp] theorem State.latchOff_hostData (off : Off) : (s.latchOff off).hostData = s.hostData := rfl

@[simp] theorem State.latchRaw_fsm (v : Word) : (s.latchRaw v).fsm = s.fsm := rfl
@[simp] theorem State.latchRaw_busy (v : Word) : (s.latchRaw v).busy = s.busy := rfl
@[simp] theorem State.latchRaw_cmdL (v : Word) : (s.latchRaw v).cmdL = s.cmdL := rfl
@[simp] theorem State.latchRaw_keyL (v : Word) : (s.latchRaw v).keyL = s.keyL := rfl
@[simp] theorem State.latchRaw_offL (v : Word) : (s.latchRaw v).offL = s.offL := rfl
@[simp] theorem State.latchRaw_rawL (v : Word) : (s.latchRaw v).rawL = some v := rfl
@[simp] theorem State.latchRaw_backL (v : Word) : (s.latchRaw v).backL = s.backL := rfl
@[simp] theorem State.latchRaw_outcome (v : Word) : (s.latchRaw v).outcome = s.outcome := rfl
@[simp] theorem State.latchRaw_err (v : Word) : (s.latchRaw v).err = s.err := rfl
@[simp] theorem State.latchRaw_val0 (v : Word) : (s.latchRaw v).val0 = s.val0 := rfl
@[simp] theorem State.latchRaw_val1 (v : Word) : (s.latchRaw v).val1 = s.val1 := rfl
@[simp] theorem State.latchRaw_val2 (v : Word) : (s.latchRaw v).val2 = s.val2 := rfl
@[simp] theorem State.latchRaw_val3 (v : Word) : (s.latchRaw v).val3 = s.val3 := rfl
@[simp] theorem State.latchRaw_barKind (v : Word) : (s.latchRaw v).barKind = s.barKind := rfl
@[simp] theorem State.latchRaw_barAddr (v : Word) : (s.latchRaw v).barAddr = s.barAddr := rfl
@[simp] theorem State.latchRaw_barSize (v : Word) : (s.latchRaw v).barSize = s.barSize := rfl
@[simp] theorem State.latchRaw_barPf (v : Word) : (s.latchRaw v).barPf = s.barPf := rfl
@[simp] theorem State.latchRaw_port (v : Word) : (s.latchRaw v).port = s.port := rfl
@[simp] theorem State.latchRaw_pending (v : Word) : (s.latchRaw v).pending = s.pending := rfl
@[simp] theorem State.latchRaw_issued (v : Word) : (s.latchRaw v).issued = s.issued := rfl
@[simp] theorem State.latchRaw_history (v : Word) : (s.latchRaw v).history = s.history := rfl
@[simp] theorem State.latchRaw_pins (v : Word) : (s.latchRaw v).pins = s.pins := rfl
@[simp] theorem State.latchRaw_inputs (v : Word) : (s.latchRaw v).inputs = s.inputs := rfl
@[simp] theorem State.latchRaw_hostData (v : Word) : (s.latchRaw v).hostData = s.hostData := rfl

@[simp] theorem State.latchBack_fsm (v : Word) : (s.latchBack v).fsm = s.fsm := rfl
@[simp] theorem State.latchBack_busy (v : Word) : (s.latchBack v).busy = s.busy := rfl
@[simp] theorem State.latchBack_cmdL (v : Word) : (s.latchBack v).cmdL = s.cmdL := rfl
@[simp] theorem State.latchBack_keyL (v : Word) : (s.latchBack v).keyL = s.keyL := rfl
@[simp] theorem State.latchBack_offL (v : Word) : (s.latchBack v).offL = s.offL := rfl
@[simp] theorem State.latchBack_rawL (v : Word) : (s.latchBack v).rawL = s.rawL := rfl
@[simp] theorem State.latchBack_backL (v : Word) : (s.latchBack v).backL = some v := rfl
@[simp] theorem State.latchBack_outcome (v : Word) : (s.latchBack v).outcome = s.outcome := rfl
@[simp] theorem State.latchBack_err (v : Word) : (s.latchBack v).err = s.err := rfl
@[simp] theorem State.latchBack_val0 (v : Word) : (s.latchBack v).val0 = s.val0 := rfl
@[simp] theorem State.latchBack_val1 (v : Word) : (s.latchBack v).val1 = s.val1 := rfl
@[simp] theorem State.latchBack_val2 (v : Word) : (s.latchBack v).val2 = s.val2 := rfl
@[simp] theorem State.latchBack_val3 (v : Word) : (s.latchBack v).val3 = s.val3 := rfl
@[simp] theorem State.latchBack_barKind (v : Word) : (s.latchBack v).barKind = s.barKind := rfl
@[simp] theorem State.latchBack_barAddr (v : Word) : (s.latchBack v).barAddr = s.barAddr := rfl
@[simp] theorem State.latchBack_barSize (v : Word) : (s.latchBack v).barSize = s.barSize := rfl
@[simp] theorem State.latchBack_barPf (v : Word) : (s.latchBack v).barPf = s.barPf := rfl
@[simp] theorem State.latchBack_port (v : Word) : (s.latchBack v).port = s.port := rfl
@[simp] theorem State.latchBack_pending (v : Word) : (s.latchBack v).pending = s.pending := rfl
@[simp] theorem State.latchBack_issued (v : Word) : (s.latchBack v).issued = s.issued := rfl
@[simp] theorem State.latchBack_history (v : Word) : (s.latchBack v).history = s.history := rfl
@[simp] theorem State.latchBack_pins (v : Word) : (s.latchBack v).pins = s.pins := rfl
@[simp] theorem State.latchBack_inputs (v : Word) : (s.latchBack v).inputs = s.inputs := rfl
@[simp] theorem State.latchBack_hostData (v : Word) : (s.latchBack v).hostData = s.hostData := rfl

@[simp] theorem State.sample_fsm : (s.sample).fsm = s.fsm := rfl
@[simp] theorem State.sample_busy : (s.sample).busy = s.busy := rfl
@[simp] theorem State.sample_cmdL : (s.sample).cmdL = s.cmdL := rfl
@[simp] theorem State.sample_keyL : (s.sample).keyL = s.keyL := rfl
@[simp] theorem State.sample_offL : (s.sample).offL = s.offL := rfl
@[simp] theorem State.sample_rawL : (s.sample).rawL = s.rawL := rfl
@[simp] theorem State.sample_backL : (s.sample).backL = s.backL := rfl
@[simp] theorem State.sample_outcome : (s.sample).outcome = s.outcome := rfl
@[simp] theorem State.sample_err : (s.sample).err = s.err := rfl
@[simp] theorem State.sample_val0 : (s.sample).val0 = s.val0 := rfl
@[simp] theorem State.sample_val1 : (s.sample).val1 = s.val1 := rfl
@[simp] theorem State.sample_val2 : (s.sample).val2 = s.val2 := rfl
@[simp] theorem State.sample_val3 : (s.sample).val3 = s.val3 := rfl
@[simp] theorem State.sample_barKind : (s.sample).barKind = s.barKind := rfl
@[simp] theorem State.sample_barAddr : (s.sample).barAddr = s.barAddr := rfl
@[simp] theorem State.sample_barSize : (s.sample).barSize = s.barSize := rfl
@[simp] theorem State.sample_barPf : (s.sample).barPf = s.barPf := rfl
@[simp] theorem State.sample_port : (s.sample).port = s.port := rfl
@[simp] theorem State.sample_pending : (s.sample).pending = s.pending := rfl
@[simp] theorem State.sample_issued : (s.sample).issued = s.issued := rfl
@[simp] theorem State.sample_history : (s.sample).history = s.history := rfl
@[simp] theorem State.sample_pins : (s.sample).pins = s.inputs.headD Pins.quiet := rfl
@[simp] theorem State.sample_inputs : (s.sample).inputs = s.inputs.tail := rfl
@[simp] theorem State.sample_hostData : (s.sample).hostData = s.hostData := rfl

@[simp] theorem State.showHost_fsm (d : Option Long) : (s.showHost d).fsm = s.fsm := rfl
@[simp] theorem State.showHost_busy (d : Option Long) : (s.showHost d).busy = s.busy := rfl
@[simp] theorem State.showHost_cmdL (d : Option Long) : (s.showHost d).cmdL = s.cmdL := rfl
@[simp] theorem State.showHost_keyL (d : Option Long) : (s.showHost d).keyL = s.keyL := rfl
@[simp] theorem State.showHost_offL (d : Option Long) : (s.showHost d).offL = s.offL := rfl
@[simp] theorem State.showHost_rawL (d : Option Long) : (s.showHost d).rawL = s.rawL := rfl
@[simp] theorem State.showHost_backL (d : Option Long) : (s.showHost d).backL = s.backL := rfl
@[simp] theorem State.showHost_outcome (d : Option Long) : (s.showHost d).outcome = s.outcome := rfl
@[simp] theorem State.showHost_err (d : Option Long) : (s.showHost d).err = s.err := rfl
@[simp] theorem State.showHost_val0 (d : Option Long) : (s.showHost d).val0 = s.val0 := rfl
@[simp] theorem State.showHost_val1 (d : Option Long) : (s.showHost d).val1 = s.val1 := rfl
@[simp] theorem State.showHost_val2 (d : Option Long) : (s.showHost d).val2 = s.val2 := rfl
@[simp] theorem State.showHost_val3 (d : Option Long) : (s.showHost d).val3 = s.val3 := rfl
@[simp] theorem State.showHost_barKind (d : Option Long) : (s.showHost d).barKind = s.barKind := rfl
@[simp] theorem State.showHost_barAddr (d : Option Long) : (s.showHost d).barAddr = s.barAddr := rfl
@[simp] theorem State.showHost_barSize (d : Option Long) : (s.showHost d).barSize = s.barSize := rfl
@[simp] theorem State.showHost_barPf (d : Option Long) : (s.showHost d).barPf = s.barPf := rfl
@[simp] theorem State.showHost_port (d : Option Long) : (s.showHost d).port = s.port := rfl
@[simp] theorem State.showHost_pending (d : Option Long) : (s.showHost d).pending = s.pending := rfl
@[simp] theorem State.showHost_issued (d : Option Long) : (s.showHost d).issued = s.issued := rfl
@[simp] theorem State.showHost_history (d : Option Long) : (s.showHost d).history = s.history := rfl
@[simp] theorem State.showHost_pins (d : Option Long) : (s.showHost d).pins = s.pins := rfl
@[simp] theorem State.showHost_inputs (d : Option Long) : (s.showHost d).inputs = s.inputs := rfl
@[simp] theorem State.showHost_hostData (d : Option Long) : (s.showHost d).hostData = d := rfl

end Sys2Proof.Machine
end

