-- ==== Sys2Proof/Laws/Ops.lean ====
section
/-! SUPPORT. Once for each shared operation, everything it can do; provers cite these and do not unfold the operation. -/

namespace Sys2Proof.Machine

/-! ### Transactions -/

theorem offsetOk_iff (o : Off) : offsetOk o = true ↔ o.toNat % 4 = 0 ∧ o.toNat < Config.cfgSpaceBytes := by
  have h : 256 ≤ Config.cfgSpaceBytes := by unfold Config.cfgSpaceBytes; split <;> omega
  simp only [offsetOk, Bool.and_eq_true, Bool.or_eq_true, beq_iff_eq, decide_eq_true_eq]
  omega

theorem offsetOk_of_lt {o : Off} (h4 : o.toNat % 4 = 0) (h : o.toNat < 256) : offsetOk o = true := by
  simp [offsetOk, h4, h]

theorem barOffset_toNat {slot : Nat} (h : slot ≤ 5) : (barOffset slot).toNat = 0x10 + 4 * slot := by
  simp only [barOffset, BitVec.toNat_ofNat]
  omega

theorem offsetOk_barOffset {slot : Nat} (h : slot ≤ 5) : offsetOk (barOffset slot) = true := by
  have := barOffset_toNat h
  exact offsetOk_of_lt (by omega) (by omega)

theorem upperOffset_toNat {slot : Nat} (h : slot ≤ 5) : (barOffset slot + 4#12).toNat = 0x14 + 4 * slot := by
  rw [BitVec.toNat_add, barOffset_toNat h]
  simp only [BitVec.toNat_ofNat]
  omega

theorem offsetOk_upperOffset {slot : Nat} (h : slot ≤ 5) : offsetOk (barOffset slot + 4#12) = true := by
  have := upperOffset_toNat h
  exact offsetOk_of_lt (by omega) (by omega)

theorem inContract_ok {x : Transaction} {t : State} (h : offsetOk x.offset = true) : inContract x t = .next t := by
  simp [inContract, h]

theorem inContract_next {x : Transaction} {t u : State} (h : inContract x t = .next u) :
    offsetOk x.offset = true ∧ u = t := by
  unfold inContract at h
  split at h
  · exact ⟨‹_›, by injection h with h; exact h.symm⟩
  · cases h

theorem inContract_refused {x : Transaction} {t : State} (h : offsetOk x.offset = false) :
    inContract x t = .refused (.configOffset x.offset) := by
  simp [inContract, h]

theorem issueNext_read {s : State} {key : Word} {off : Off} {f : Fsm} (h : offsetOk off = true) :
    s.issueNext (.read key off) f = .next (s.prepare (.read key off) f) :=
  inContract_ok h

theorem issueNext_write {s : State} {key v : Word} {off : Off} {f : Fsm} (h : offsetOk off = true) :
    s.issueNext (.write key off v) f = .next (s.prepare (.write key off v) f) :=
  inContract_ok h

/-- What a step in which nothing completes does on the port. -/
theorem presentPending_cases (s : State) :
    (s.presentPending = s ∧ (s.port = none → s.pending = none)) ∨
      ∃ x, s.port = none ∧ s.pending = some x ∧ s.presentPending = s.present x := by
  unfold State.presentPending
  split
  · exact .inr ⟨_, ‹_›, ‹_›, rfl⟩
  · rename_i h
    refine .inl ⟨rfl, fun hp => ?_⟩
    cases hx : s.pending with
    | none => rfl
    | some x => exact absurd hx (h x hp)

/-- A completion is one of the outstanding transaction, by its number. -/
theorem completion_eq_some {s : State} {v : Word} :
    s.completion = some v ↔ s.port.isSome = true ∧ ∃ n, s.pins.done = some ⟨n, v⟩ ∧ n + 1 = s.issued := by
  unfold State.completion
  cases s.port <;> cases s.pins.done <;> simp
  rename_i c
  constructor
  · rintro ⟨hn, rfl⟩
    exact ⟨c.number, rfl, hn⟩
  · rintro ⟨n, rfl, hn⟩
    exact ⟨hn, rfl⟩

theorem onDone_some {s : State} {k : Word → StepOutcome} {v : Word} (h : s.completion = some v) : s.onDone k = k v := by
  simp [State.onDone, h]

theorem onDone_none {s : State} {k : Word → StepOutcome} (h : s.completion = none) :
    s.onDone k = .next s.presentPending := by
  simp [State.onDone, h]

theorem onReadDone_some {s : State} {k : Word → State → StepOutcome} {v : Word} (h : s.completion = some v) :
    s.onReadDone k = k v (s.retire (.readDone v)) :=
  onDone_some h

theorem onReadDone_none {s : State} {k : Word → State → StepOutcome} (h : s.completion = none) :
    s.onReadDone k = .next s.presentPending :=
  onDone_none h

theorem onWriteDone_some {s : State} {k : State → StepOutcome} {v : Word} (h : s.completion = some v) :
    s.onWriteDone k = k (s.retire .writeDone) :=
  onDone_some h

theorem onWriteDone_none {s : State} {k : State → StepOutcome} (h : s.completion = none) :
    s.onWriteDone k = .next s.presentPending :=
  onDone_none h

theorem onReadDone_next {s t : State} {k : Word → State → StepOutcome} (h : s.onReadDone k = .next t) :
    (s.completion = none ∧ t = s.presentPending) ∨
      ∃ v, s.completion = some v ∧ k v (s.retire (.readDone v)) = .next t := by
  cases hc : s.completion with
  | none => exact .inl ⟨rfl, by rw [onReadDone_none hc] at h; injection h with h; exact h.symm⟩
  | some v => exact .inr ⟨v, rfl, (onReadDone_some hc).symm.trans h⟩

theorem onWriteDone_next {s t : State} {k : State → StepOutcome} (h : s.onWriteDone k = .next t) :
    (s.completion = none ∧ t = s.presentPending) ∨
      ∃ v, s.completion = some v ∧ k (s.retire .writeDone) = .next t := by
  cases hc : s.completion with
  | none => exact .inl ⟨rfl, by rw [onWriteDone_none hc] at h; injection h with h; exact h.symm⟩
  | some v => exact .inr ⟨v, rfl, (onWriteDone_some hc).symm.trans h⟩

/-! ### Latches -/

theorem withKey_some {s : State} {k : Word → StepOutcome} {key : Word} (h : s.keyL = some key) :
    s.withKey k = k key := by
  simp [State.withKey, h]

theorem withKey_next {s t : State} {k : Word → StepOutcome} (h : s.withKey k = .next t) :
    ∃ key, s.keyL = some key ∧ k key = .next t := by
  unfold State.withKey at h
  split at h
  · exact ⟨_, ‹_›, h⟩
  · cases h

theorem withAccess_some {s : State} {k : Word → Off → StepOutcome} {key : Word} {off : Off} (hk : s.keyL = some key)
    (ho : s.offL = some off) : s.withAccess k = k key off := by
  simp [State.withAccess, State.withKey, hk, ho]

theorem withAccess_next {s t : State} {k : Word → Off → StepOutcome} (h : s.withAccess k = .next t) :
    ∃ key off, s.keyL = some key ∧ s.offL = some off ∧ k key off = .next t := by
  obtain ⟨key, hk, h⟩ := withKey_next h
  split at h
  · exact ⟨key, _, hk, ‹_›, h⟩
  · cases h

theorem withRaw_some {s : State} {k : Word → StepOutcome} {raw : Word} (h : s.rawL = some raw) :
    s.withRaw k = k raw := by
  simp [State.withRaw, h]

theorem withRaw_next {s t : State} {k : Word → StepOutcome} (h : s.withRaw k = .next t) :
    ∃ raw, s.rawL = some raw ∧ k raw = .next t := by
  unfold State.withRaw at h
  split at h
  · exact ⟨_, ‹_›, h⟩
  · cases h

theorem withBack_some {s : State} {k : Word → StepOutcome} {back : Word} (h : s.backL = some back) :
    s.withBack k = k back := by
  simp [State.withBack, h]

theorem withBack_next {s t : State} {k : Word → StepOutcome} (h : s.withBack k = .next t) :
    ∃ back, s.backL = some back ∧ k back = .next t := by
  unfold State.withBack at h
  split at h
  · exact ⟨_, ‹_›, h⟩
  · cases h

/-! ### Completion and acceptance -/

theorem finishOk_next {s t : State} {r : Results} : s.finishOk r = .next t ↔ t = s.finish .ok 0#4 r := by
  simp [State.finishOk, eq_comm]

theorem finishAbsent_next {s t : State} : s.finishAbsent = .next t ↔ t = s.finish .absent 0#4 {} := by
  simp [State.finishAbsent, eq_comm]

theorem raiseError_next {s t : State} {c : ErrorCode} :
    s.raiseError c = .next t ↔ t = s.finish .error (errorCode c) {} := by
  simp [State.raiseError, eq_comm]

/-- A completion leaves what `Finished` lists. -/
theorem finish_finished (s : State) (o : CmdOutcome) (e : BitVec 4) (r : Results) :
    Finished (s.finish o e r) (outcomeCode o) e r :=
  ⟨rfl, rfl, rfl, rfl, rfl, rfl, rfl, rfl, rfl, rfl, rfl, rfl⟩

theorem finish_latchesKept (s : State) (o : CmdOutcome) (e : BitVec 4) (r : Results) : LatchesKept s (s.finish o e r) :=
  ⟨rfl, rfl, rfl, rfl, rfl⟩

theorem finish_portKept (s : State) (o : CmdOutcome) (e : BitVec 4) (r : Results) : PortKept s (s.finish o e r) :=
  ⟨rfl, rfl, rfl, rfl⟩

theorem finish_inputsKept (s : State) (o : CmdOutcome) (e : BitVec 4) (r : Results) : InputsKept s (s.finish o e r) :=
  ⟨rfl, rfl, rfl⟩

/-- A meaning that answers a completion completes at once. -/
theorem completesAtOnce_of {i : Instr} {s : State} {o : CmdOutcome} {e : BitVec 4} {r : Results}
    (h : exec i s = .next (s.finish o e r)) : CompletesAtOnce i s (outcomeCode o) e r :=
  ⟨_, h, finish_finished .., finish_latchesKept .., finish_portKept .., finish_inputsKept ..⟩

/-- A meaning that answers a completion after its read was retired completes on its read. -/
theorem completesOnRead_of {i : Instr} {s : State} {v : Word} {o : CmdOutcome} {e : BitVec 4} {r : Results}
    (h : exec i s = .next ((s.retire (.readDone v)).finish o e r)) : CompletesOnRead i s v (outcomeCode o) e r :=
  ⟨_, h, finish_finished .., ⟨rfl, rfl, rfl, rfl⟩, ⟨rfl, rfl, rfl, rfl, rfl⟩, ⟨rfl, rfl, rfl⟩⟩

theorem acceptRead_ok {s : State} {off : Off} {f : Fsm} (h : offsetOk off = true) :
    s.acceptRead off f = .next (((s.latchCommand off).goto f).present (.read s.pins.opa off)) :=
  inContract_ok h

theorem acceptRead_next {s t : State} {off : Off} {f : Fsm} (h : s.acceptRead off f = .next t) :
    offsetOk off = true ∧ t = ((s.latchCommand off).goto f).present (.read s.pins.opa off) :=
  inContract_next h

/-! ### The trace -/

@[simp] theorem issuedIn_nil : issuedIn [] = [] := rfl

@[simp] theorem issuedIn_append (a b : List Event) : issuedIn (a ++ b) = issuedIn a ++ issuedIn b := by
  simp [issuedIn]

@[simp] theorem issuedIn_issued (x : Transaction) (h : List Event) : issuedIn (.issued x :: h) = x :: issuedIn h := rfl

@[simp] theorem issuedIn_readDone (v : Word) (h : List Event) : issuedIn (.readDone v :: h) = issuedIn h := rfl

@[simp] theorem issuedIn_writeDone (h : List Event) : issuedIn (.writeDone :: h) = issuedIn h := rfl

/-! ### A step -/

/-- The state a step's work starts from: the inputs sampled, the host's read served with data `d`. -/
abbrev State.begun (s : State) (d : Option Long) : State := s.sample.showHost d

theorem serveRead_ok {s t : State} (h : s.serveRead = .ok t) : ∃ d, t = s.showHost d := by
  unfold State.serveRead at h
  split at h
  · injection h with h
    exact ⟨none, h.symm⟩
  · split at h
    · injection h with h
      exact ⟨_, h.symm⟩
    · cases h

theorem begun_none {s : State} {p : Pins} {rest : List Pins} (h : s.inputs = p :: rest) :
    s.begun none = { s with pins := p, inputs := rest, hostData := none } := by
  simp [State.begun, State.sample, State.showHost, h]

theorem serveRead_none {s : State} (h : s.pins.read = none) : s.serveRead = .ok (s.showHost none) := by
  simp [State.serveRead, h]

/-- What work a sampled state has, when the step can still go on. -/
inductive SampledWork (s : State) : Work → Prop where
  | reset (h : s.pins.rst = true) : SampledWork s (.ends (.next s.applyReset))
  | quiet (hr : s.pins.rst = false) (hb : s.busy = false) (hf : s.fsm = .idle) (hc : s.pins.cmdValid = false) :
      SampledWork s (.ends (.next s))
  | illegal (hr : s.pins.rst = false) (hb : s.busy = false) (hf : s.fsm = .idle) (hc : s.pins.cmdValid = true)
      (e : Illegal) (hd : decode s.pins.cmd = .error e) : SampledWork s (.ends s.rejectCommand)
  | presented (hr : s.pins.rst = false) (hb : s.busy = false) (hf : s.fsm = .idle) (hc : s.pins.cmdValid = true)
      (i : Instr) (hd : decode s.pins.cmd = .ok i) : SampledWork s (.runs i s)
  | latched (hr : s.pins.rst = false) (hb : s.busy = true) (hf : s.fsm ≠ .idle) (w : Word) (hw : s.cmdL = some w)
      (i : Instr) (hd : decode w = .ok i) : SampledWork s (.runs i s)
  | unlatched (hb : s.busy = true) (hf : s.fsm ≠ .idle) (hw : s.cmdL = none) :
      SampledWork s (.ends (.fault (.emptyLatch .cmd)))
  | undecoded (hb : s.busy = true) (hf : s.fsm ≠ .idle) (w : Word) (hw : s.cmdL = some w) (e : Illegal)
      (hd : decode w = .error e) : SampledWork s (.ends (.fault (.noRule s.fsm)))
  | disagree (h : ¬ s.BusyAgrees) : SampledWork s (.ends (.fault (.noRule s.fsm)))

theorem sampledWork_cases (s : State) : SampledWork s (sampledWork s) := by
  unfold sampledWork
  by_cases hr : s.pins.rst = true
  · rw [if_pos hr]
    exact .reset hr
  rw [if_neg hr]
  simp only [Bool.not_eq_true] at hr
  by_cases ha : s.BusyAgrees
  · rw [if_neg (by unfold State.BusyAgrees at ha; cases hb : s.busy <;> simp_all)]
    cases hb : s.busy with
    | true =>
      have hf := ha.mp hb
      rw [if_pos rfl]
      unfold latchedWork
      split
      · exact .unlatched hb hf ‹_›
      · split
        · exact .latched hr hb hf _ ‹_› _ ‹_›
        · exact .undecoded hb hf _ ‹_› _ ‹_›
    | false =>
      have hf : s.fsm = .idle := by
        by_contra h
        simp [ha.mpr h] at hb
      rw [if_neg (by simp)]
      unfold presentedWork
      split
      · split
        · exact .presented hr hb hf ‹_› _ ‹_›
        · exact .illegal hr hb hf ‹_› _ ‹_›
      · rename_i h
        exact .quiet hr hb hf (by simpa using h)
  · rw [if_pos (by unfold State.BusyAgrees at ha; cases hb : s.busy <;> simp_all)]
    exact .disagree ha

/-- Once for `step`: what it can do when it answers a next state. -/
theorem step_next {s t : State} (h : step s = .next t) :
    (s.port.isSome = true → s.inputs ≠ []) ∧ ∃ d w, SampledWork (s.begun d) w ∧ perform w = .next t := by
  unfold step nextWork at h
  by_cases hs : (s.port.isSome && s.inputs.isEmpty) = true
  · rw [if_pos hs] at h
    cases h
  rw [if_neg hs] at h
  refine ⟨fun hb he => by simp [hb, he] at hs, ?_⟩
  split at h
  · cases h
  · obtain ⟨d, rfl⟩ := serveRead_ok ‹_›
    exact ⟨d, _, sampledWork_cases _, h⟩

/-- A step whose inputs are not exhausted and whose host reads nothing does its sampled work. -/
theorem step_eq_sampled {s : State} {p : Pins} {rest : List Pins} (hi : s.inputs = p :: rest) (hr : p.read = none) :
    step s = perform (sampledWork (s.begun none)) := by
  have h : s.sample.serveRead = .ok (s.begun none) := serveRead_none (by simp [hi, hr])
  simp [step, nextWork, h, hi]

/-- A ready machine whose next inputs present a command runs it (R67). -/
theorem step_presented {s : State} {p : Pins} {rest : List Pins} {i : Instr} (hs : s.Ready) (hi : s.inputs = p :: rest)
    (hr : p.read = none) (hrst : p.rst = false) (hc : p.cmdValid = true) (hd : decode p.cmd = .ok i) :
    step s = exec i (s.begun none) := by
  rw [step_eq_sampled hi hr]
  simp [sampledWork, presentedWork, hs.1, hs.2, hi, hrst, hc, hd, perform]

/-- A busy machine runs on with the command in CMD_L (R24). -/
theorem step_latched {s : State} {p : Pins} {rest : List Pins} {w : Word} {i : Instr} (hb : s.busy = true)
    (hf : s.fsm ≠ .idle) (hi : s.inputs = p :: rest) (hr : p.read = none) (hrst : p.rst = false)
    (hw : s.cmdL = some w) (hd : decode w = .ok i) : step s = exec i (s.begun none) := by
  rw [step_eq_sampled hi hr]
  have : (s.fsm != Fsm.idle) = true := by simpa using hf
  simp [sampledWork, latchedWork, hb, this, hi, hrst, hw, hd, perform]

theorem reaches_succ {s t u : State} {k : Nat} (h : step s = .next t) (hr : t.Reaches k u) : s.Reaches (k + 1) u := by
  unfold State.Reaches at *
  simp only [Host.Core.run]
  rw [show core.step s = step s from rfl, h]
  exact hr

end Sys2Proof.Machine
end

