-- ==== Sys2Proof/Laws/Exec.lean ====
section
/-! SUPPORT. Once for the commands and for the step, everything they can do when they answer a next state: provers take these apart
with `cases` and unfold no meaning. -/

namespace Sys2Proof.Machine

/-- Everything a command with configuration accesses can do in a step that answers a next state. -/
inductive AccessStep : Instr → State → State → Prop where
  | waits {i s} (hf : s.fsm ≠ .idle) (hc : s.completion = none) (hp : s.port = none → s.pending = none) :
      AccessStep i s s
  | presents {i s x} (hf : s.fsm ≠ .idle) (hp : s.port = none) (hx : s.pending = some x) :
      AccessStep i s (s.present x)
  | accepts {i s off} (hf : s.fsm = .idle) (ho : headerOffset i = some off) :
      AccessStep i s (((s.latchCommand off).goto .hdrRd0).present (.read s.pins.opa off))
  | completes {i s v} (o : CmdOutcome) (r : Results) (hf : s.fsm = .hdrRd0) (hi : (headerOffset i).isSome = true)
      (hcap : i ≠ .cfgCapPointer) (hc : s.completion = some v) (ho : o ≠ .error) (hr : o = .absent → r = {})
      (hb : r.barKind = none ∧ r.barAddr = none ∧ r.barSize = none ∧ r.barPf = none) :
      AccessStep i s ((s.retire (.readDone v)).finish o 0#4 r)
  | noCapabilities {s v} (hf : s.fsm = .hdrRd0) (hc : s.completion = some v) (hv : v.getLsbD 20 = false) :
      AccessStep .cfgCapPointer s (((s.retire (.readDone v)).latchRaw v).finish .ok 0#4 { val0 := some 0#32 })
  | capabilities {s v key} (hf : s.fsm = .hdrRd0) (hc : s.completion = some v) (hv : v.getLsbD 20 = true)
      (hk : s.keyL = some key) :
      AccessStep .cfgCapPointer s
        ((((s.retire (.readDone v)).latchRaw v).latchOff 0x34#12).prepare (.read key 0x34#12) .hdrRd1)
  | pointer {s v} (hf : s.fsm = .hdrRd1) (hc : s.completion = some v) :
      AccessStep .cfgCapPointer s ((s.retire (.readDone v)).finish .ok 0#4 { val0 := some (field v 7 0) })
  | badSlot {s slot} (hf : s.fsm = .idle) (hs : 5 < slot) : AccessStep (.barProbe slot) s (s.finish .error 5#4 {})
  | rawRead {s slot} (hf : s.fsm = .idle) (hs : slot ≤ 5) :
      AccessStep (.barProbe slot) s
        (((s.latchCommand (barOffset slot)).goto .barRawRd).present (.read s.pins.opa (barOffset slot)))
  | ioBar {s slot v} (hf : s.fsm = .barRawRd) (hc : s.completion = some v) (hv : v.getLsbD 0 = true) :
      AccessStep (.barProbe slot) s (((s.retire (.readDone v)).latchRaw v).finish .ok 0#4
        { barKind := some 2#2, barAddr := some ((ioPort v).setWidth 64) })
  | reservedType {s slot v} (hf : s.fsm = .barRawRd) (hc : s.completion = some v) (hv : v.getLsbD 0 = false) :
      AccessStep (.barProbe slot) s (((s.retire (.readDone v)).latchRaw v).finish .error 2#4 {})
  | onesWrite {s slot v key off} (hf : s.fsm = .barRawRd) (hc : s.completion = some v) (hv : probed v)
      (hk : s.keyL = some key) (ho : s.offL = some off) (hok : offsetOk off = true) :
      AccessStep (.barProbe slot) s
        (((s.retire (.readDone v)).latchRaw v).prepare (.write key off allOnes) .barOnesWr)
  | readBack {s slot v key off} (hf : s.fsm = .barOnesWr) (hc : s.completion = some v)
      (hk : s.keyL = some key) (ho : s.offL = some off) (hok : offsetOk off = true) :
      AccessStep (.barProbe slot) s ((s.retire .writeDone).prepare (.read key off) .barBackRd)
  | restore {s slot v key off raw} (hf : s.fsm = .barBackRd) (hc : s.completion = some v)
      (hk : s.keyL = some key) (ho : s.offL = some off) (hr : s.rawL = some raw) (hok : offsetOk off = true) :
      AccessStep (.barProbe slot) s
        (((s.retire (.readDone v)).latchBack v).prepare (.write key off raw) .barRestoreWr)
  | absentBar {s slot v raw} (hf : s.fsm = .barRestoreWr) (hc : s.completion = some v) (hr : s.rawL = some raw)
      (hb : s.backL = some 0#32) : AccessStep (.barProbe slot) s ((s.retire .writeDone).finish .absent 0#4 {})
  | noSize {s slot v raw back} (hf : s.fsm = .barRestoreWr) (hc : s.completion = some v) (hr : s.rawL = some raw)
      (hb : s.backL = some back) (h0 : back ≠ 0#32) (hz : sizeRemainder back = 0#32) :
      AccessStep (.barProbe slot) s ((s.retire .writeDone).finish .error 3#4 {})
  | memory32 {s slot v raw back} (hf : s.fsm = .barRestoreWr) (hc : s.completion = some v) (hr : s.rawL = some raw)
      (hb : s.backL = some back) (hz : sizeRemainder back ≠ 0#32) (ht : memoryType raw = 0b00#2) :
      AccessStep (.barProbe slot) s ((s.retire .writeDone).finish .ok 0#4
        { barKind := some 0#2, barAddr := some ((memoryBase raw).setWidth 64)
          barSize := some ((barSize32 back).setWidth 64), barPf := some (prefetchable raw) })
  | upperRead {s slot v raw back key off} (hf : s.fsm = .barRestoreWr) (hc : s.completion = some v)
      (hr : s.rawL = some raw) (hb : s.backL = some back) (hz : sizeRemainder back ≠ 0#32)
      (ht : memoryType raw ≠ 0b00#2) (hk : s.keyL = some key) (ho : s.offL = some off)
      (hok : offsetOk (off + 4#12) = true) :
      AccessStep (.barProbe slot) s
        (((s.retire .writeDone).latchOff (off + 4#12)).prepare (.read key (off + 4#12)) .barUpperRd)
  | memory64 {s slot u raw back} (hf : s.fsm = .barUpperRd) (hc : s.completion = some u) (hr : s.rawL = some raw)
      (hb : s.backL = some back) :
      AccessStep (.barProbe slot) s ((s.retire (.readDone u)).finish .ok 0#4
        { barKind := some 1#2, barAddr := some (u ++ memoryBase raw)
          barSize := some ((barSize32 back).setWidth 64), barPf := some (prefetchable raw) })

/-- A step of a command in which nothing completes. -/
theorem accessStep_presentPending {i : Instr} {s : State} (hf : s.fsm ≠ .idle) (hc : s.completion = none) :
    AccessStep i s s.presentPending := by
  rcases presentPending_cases s with ⟨he, hp⟩ | ⟨x, hp, hx, he⟩ <;> rw [he]
  · exact .waits hf hc hp
  · exact .presents hf hp hx

theorem headerRead_next {i : Instr} {off : Off} {complete : Word → State → StepOutcome} {s t : State}
    (ho : headerOffset i = some off) (hn : i ≠ .cfgCapPointer)
    (hc : ∀ v u t, complete v u = .next t → ∃ o r, t = u.finish o 0#4 r ∧ o ≠ .error ∧ (o = .absent → r = {}) ∧
      r.barKind = none ∧ r.barAddr = none ∧ r.barSize = none ∧ r.barPf = none)
    (h : headerRead off complete s = .next t) : AccessStep i s t := by
  unfold headerRead at h
  split at h
  · obtain ⟨-, rfl⟩ := acceptRead_next h
    exact .accepts ‹_› ho
  · rcases onReadDone_next h with ⟨hc, rfl⟩ | ⟨v, hv, h⟩
    · exact accessStep_presentPending (by simp [*]) hc
    · obtain ⟨o, r, rfl, h1, h2, h3⟩ := hc _ _ _ h
      exact .completes o r ‹_› (by simp [ho]) hn hv h1 h2 h3
  · cases h

/-- Once for `exec`, for every command with configuration accesses. -/
theorem exec_access {i : Instr} {s t : State} (ha : accesses i = true) (h : exec i s = .next t) : AccessStep i s t := by
  cases i
  case cfgIdentity =>
    exact headerRead_next rfl (by simp) (fun v u t h => ⟨.ok, _, finishOk_next.mp h, by simp⟩) h
  case cfgStatus =>
    exact headerRead_next rfl (by simp) (fun v u t h => ⟨.ok, _, finishOk_next.mp h, by simp⟩) h
  case cfgRevClass =>
    exact headerRead_next rfl (by simp) (fun v u t h => ⟨.ok, _, finishOk_next.mp h, by simp⟩) h
  case cfgHeaderType =>
    exact headerRead_next rfl (by simp) (fun v u t h => ⟨.ok, _, finishOk_next.mp h, by simp⟩) h
  case cfgMultifunction =>
    exact headerRead_next rfl (by simp) (fun v u t h => ⟨.ok, _, finishOk_next.mp h, by simp⟩) h
  case cfgEndpoint =>
    refine headerRead_next rfl (by simp) (fun v u t h => ?_) h
    split at h
    · exact ⟨.ok, _, finishOk_next.mp h, by simp⟩
    · exact ⟨.absent, _, finishAbsent_next.mp h, by simp⟩
  case cfgCapPointer =>
    simp only [exec, execCfgCapPointer] at h
    split at h
    · obtain ⟨-, rfl⟩ := acceptRead_next h
      exact .accepts ‹_› rfl
    · rcases onReadDone_next h with ⟨hc, rfl⟩ | ⟨v, hv, h⟩
      · exact accessStep_presentPending (by simp [*]) hc
      · unfold capPointerGate at h
        split at h
        · obtain ⟨key, hk, h⟩ := withKey_next h
          obtain ⟨-, rfl⟩ := inContract_next h
          exact .capabilities ‹_› hv ‹_› hk
        · rw [finishOk_next] at h
          subst h
          exact .noCapabilities ‹_› hv (Bool.not_eq_true _ ▸ ‹_›)
    · rcases onReadDone_next h with ⟨hc, rfl⟩ | ⟨v, hv, h⟩
      · exact accessStep_presentPending (by simp [*]) hc
      · rw [finishOk_next] at h
        subst h
        exact .pointer ‹_› hv
    · cases h
  case barProbe slot =>
    simp only [exec, execBarProbe] at h
    split at h
    · unfold barAccept at h
      split at h
      · rw [raiseError_next] at h
        subst h
        exact .badSlot ‹_› ‹_›
      · obtain ⟨-, rfl⟩ := acceptRead_next h
        exact .rawRead ‹_› (by omega)
    · rcases onReadDone_next h with ⟨hc, rfl⟩ | ⟨v, hv, h⟩
      · exact accessStep_presentPending (by simp [*]) hc
      · unfold barRawDone at h
        dsimp only at h
        split at h
        · rw [finishOk_next] at h
          subst h
          exact .ioBar ‹_› hv ‹_›
        · rename_i h0
          have h0 := (Bool.not_eq_true _).mp h0
          split at h
          · rw [raiseError_next] at h
            subst h
            exact .reservedType ‹_› hv h0
          · rename_i hm
            obtain ⟨key, off, hk, ho, h⟩ := withAccess_next h
            obtain ⟨hok, rfl⟩ := inContract_next h
            refine .onesWrite ‹_› hv ⟨h0, ?_⟩ hk ho hok
            generalize memoryType v = y at hm
            revert hm
            revert y
            decide
    · rcases onWriteDone_next h with ⟨hc, rfl⟩ | ⟨v, hv, h⟩
      · exact accessStep_presentPending (by simp [*]) hc
      · obtain ⟨key, off, hk, ho, h⟩ := withAccess_next h
        obtain ⟨hok, rfl⟩ := inContract_next h
        exact .readBack ‹_› hv hk ho hok
    · rcases onReadDone_next h with ⟨hc, rfl⟩ | ⟨v, hv, h⟩
      · exact accessStep_presentPending (by simp [*]) hc
      · obtain ⟨raw, hr, h⟩ := withRaw_next h
        obtain ⟨key, off, hk, ho, h⟩ := withAccess_next h
        obtain ⟨hok, rfl⟩ := inContract_next h
        exact .restore ‹_› hv hk ho hr hok
    · rcases onWriteDone_next h with ⟨hc, rfl⟩ | ⟨v, hv, h⟩
      · exact accessStep_presentPending (by simp [*]) hc
      · obtain ⟨raw, hr, h⟩ := withRaw_next h
        obtain ⟨back, hb, h⟩ := withBack_next h
        split at h
        · subst back
          rw [finishAbsent_next] at h
          subst h
          exact .absentBar ‹_› hv hr hb
        · split at h
          · rw [raiseError_next] at h
            subst h
            exact .noSize ‹_› hv hr hb ‹_› ‹_›
          · split at h
            · rw [finishOk_next] at h
              subst h
              exact .memory32 ‹_› hv hr hb ‹_› ‹_›
            · obtain ⟨key, off, hk, ho, h⟩ := withAccess_next h
              obtain ⟨hok, rfl⟩ := inContract_next h
              exact .upperRead ‹_› hv hr hb ‹_› ‹_› hk ho hok
    · rcases onReadDone_next h with ⟨hc, rfl⟩ | ⟨v, hv, h⟩
      · exact accessStep_presentPending (by simp [*]) hc
      · obtain ⟨raw, hr, h⟩ := withRaw_next h
        obtain ⟨back, hb, h⟩ := withBack_next h
        rw [finishOk_next] at h
        subst h
        exact .memory64 ‹_› hv hr hb
    · cases h
  all_goals simp [accesses, headerOffset] at ha

/-- Every other command completes at once: OK with value registers, or an error. -/
theorem exec_immediate {i : Instr} (s : State) (ha : accesses i = false) :
    (∃ r, exec i s = s.finishOk r ∧ r.barKind = none ∧ r.barAddr = none ∧ r.barSize = none ∧ r.barPf = none) ∨
      ∃ c, exec i s = s.raiseError c := by
  have h1 : ∀ r : Results, r.barKind = none ∧ r.barAddr = none ∧ r.barSize = none ∧ r.barPf = none →
      (∃ r', s.finishOk r = s.finishOk r' ∧ r'.barKind = none ∧ r'.barAddr = none ∧ r'.barSize = none ∧
        r'.barPf = none) ∨ ∃ c, s.finishOk r = s.raiseError c := fun r hr => .inl ⟨r, rfl, hr⟩
  have h2 : ∀ w, (∃ r, advance w s = s.finishOk r ∧ r.barKind = none ∧ r.barAddr = none ∧ r.barSize = none ∧
      r.barPf = none) ∨ ∃ c, advance w s = s.raiseError c := by
    intro w
    unfold advance
    dsimp only
    split
    · exact .inr ⟨_, rfl⟩
    · exact h1 _ ⟨rfl, rfl, rfl, rfl⟩
  cases i
  case addrEncode =>
    simp only [exec, execAddrEncode]
    split
    · exact .inr ⟨_, rfl⟩
    · exact h1 _ ⟨rfl, rfl, rfl, rfl⟩
  case bits32 =>
    simp only [exec, execBits32]
    split
    · exact .inr ⟨_, rfl⟩
    · exact h1 _ ⟨rfl, rfl, rfl, rfl⟩
  case bits16 =>
    simp only [exec, execBits16]
    split
    · exact .inr ⟨_, rfl⟩
    · exact h1 _ ⟨rfl, rfl, rfl, rfl⟩
  case advFunction => exact h2 _
  case advDevice => exact h2 _
  case advBus => exact h2 _
  case advSegment => exact h2 _
  all_goals first
    | exact h1 _ ⟨rfl, rfl, rfl, rfl⟩
    | cases ha

/-- The command `i` that a step runs: the presented one when idle, the latched one when BUSY (R24, R67). -/
inductive Serves (s : State) (i : Instr) : Prop where
  | presented (hb : s.busy = false) (hf : s.fsm = .idle) (hc : s.pins.cmdValid = true) (hd : decode s.pins.cmd = .ok i)
  | latched (hb : s.busy = true) (hf : s.fsm ≠ .idle) (w : Word) (hw : s.cmdL = some w) (hd : decode w = .ok i)

/-- What a step that answers a next state does, from `b`, the state with its inputs sampled and its host read served. -/
inductive StepCase (b : State) : State → Prop where
  | reset (hr : b.pins.rst = true) : StepCase b b.applyReset
  | quiet (hr : b.pins.rst = false) (hb : b.busy = false) (hf : b.fsm = .idle) (hc : b.pins.cmdValid = false) :
      StepCase b b
  | illegal (hr : b.pins.rst = false) (hb : b.busy = false) (hf : b.fsm = .idle) (hc : b.pins.cmdValid = true) :
      StepCase b (b.finish .error 7#4 {})
  | value (hr : b.pins.rst = false) (i : Instr) (ha : accesses i = false) (hi : Serves b i) (r : Results)
      (hn : r.barKind = none ∧ r.barAddr = none ∧ r.barSize = none ∧ r.barPf = none) :
      StepCase b (b.finish .ok 0#4 r)
  | error (hr : b.pins.rst = false) (i : Instr) (ha : accesses i = false) (hi : Serves b i) (c : ErrorCode) :
      StepCase b (b.finish .error (errorCode c) {})
  | access {t : State} (hr : b.pins.rst = false) (i : Instr) (ha : accesses i = true) (hi : Serves b i)
      (h : AccessStep i b t) : StepCase b t

theorem stepCase_of_exec {b t : State} {i : Instr} (hr : b.pins.rst = false) (hi : Serves b i) (h : exec i b = .next t) :
    StepCase b t := by
  cases ha : accesses i with
  | true => exact .access hr i ha hi (exec_access ha h)
  | false =>
    rcases exec_immediate b ha with ⟨r, he, hn⟩ | ⟨c, he⟩
    · obtain rfl := finishOk_next.mp (he.symm.trans h)
      exact .value hr i ha hi r hn
    · obtain rfl := raiseError_next.mp (he.symm.trans h)
      exact .error hr i ha hi c

/-- Once for `step`, down to the single transitions. -/
theorem step_cases {s t : State} (h : step s = .next t) : ∃ d, StepCase (s.begun d) t := by
  obtain ⟨-, d, w, hw, hp⟩ := step_next h
  refine ⟨d, ?_⟩
  cases hw with
  | reset hr =>
    injection hp with hp
    exact hp ▸ .reset hr
  | quiet hr hb hf hc =>
    injection hp with hp
    exact hp ▸ .quiet hr hb hf hc
  | illegal hr hb hf hc e hd =>
    obtain rfl := raiseError_next.mp hp
    exact .illegal hr hb hf hc
  | presented hr hb hf hc i hd => exact stepCase_of_exec hr (.presented hb hf hc hd) hp
  | latched hr hb hf w hw i hd => exact stepCase_of_exec hr (.latched hb hf w hw hd) hp
  | unlatched => cases hp
  | undecoded => cases hp
  | disagree => cases hp

/-! ### The invariant of the sequencer -/

theorem ProbeRunning.congr {s t : State} {slot : Nat} {key : Word} {off : Off} {x : Transaction}
    (h : ProbeRunning s slot key off x) (hc : t.cmdL = s.cmdL) (hk : t.keyL = s.keyL) (ho : t.offL = s.offL)
    (hx : t.Current x) : ProbeRunning t slot key off x :=
  ⟨hc ▸ h.cmd, h.slot, hk ▸ h.key, ho ▸ h.off, hx⟩

/-- `Sequenced` depends on the sequencer's state, the latches and the port alone. -/
theorem sequenced_congr {s t : State} (hs : s.Sequenced) (hf : t.fsm = s.fsm) (hl : LatchesKept s t)
    (hp : t.port = s.port) (hn : t.pending = s.pending) : t.Sequenced := by
  have cu : ∀ {x}, s.Current x → t.Current x := fun h => by unfold State.Current at *; rwa [hp, hn]
  have pr : ∀ {slot key off x}, ProbeRunning s slot key off x → ProbeRunning t slot key off x := fun h =>
    h.congr hl.cmdL hl.keyL hl.offL (cu h.current)
  unfold State.Sequenced at hs ⊢
  rw [hf, hl.cmdL, hl.keyL, hl.offL, hl.rawL, hl.backL, hp, hn]
  split at hs
  · exact hs
  · exact hs
  · obtain ⟨w, key, h1, h2, h3, h4, h5, h6⟩ := hs
    exact ⟨w, key, h1, h2, h3, h4, h5, cu h6⟩
  · obtain ⟨slot, key, h1, m⟩ := hs
    exact ⟨slot, key, h1, pr m⟩
  · obtain ⟨slot, key, raw, h1, h2, m⟩ := hs
    exact ⟨slot, key, raw, h1, h2, pr m⟩
  · obtain ⟨slot, key, raw, h1, h2, m⟩ := hs
    exact ⟨slot, key, raw, h1, h2, pr m⟩
  · obtain ⟨slot, key, raw, back, h1, h2, h3, m⟩ := hs
    exact ⟨slot, key, raw, back, h1, h2, h3, pr m⟩
  · obtain ⟨slot, key, raw, back, h1, h2, h3, h4, h5, m⟩ := hs
    exact ⟨slot, key, raw, back, h1, h2, h3, h4, h5, pr m⟩

/-- Nothing is to be presented while a transaction is outstanding. -/
theorem sequenced_exclusive {s : State} (hs : s.Sequenced) : s.port = none ∨ s.pending = none := by
  have cu : ∀ {x}, s.Current x → s.port = none ∨ s.pending = none := fun h => h.symm.imp And.left And.right
  unfold State.Sequenced at hs
  split at hs
  · exact .inl hs.1
  · obtain ⟨w, i, key, off, -, -, -, -, -, -, h⟩ := hs
    exact .inr h
  · obtain ⟨w, key, -, -, -, -, -, h⟩ := hs
    exact cu h
  · obtain ⟨slot, key, h, -⟩ := hs
    exact .inr h
  · obtain ⟨slot, key, raw, -, -, m⟩ := hs
    exact cu m.current
  · obtain ⟨slot, key, raw, -, -, m⟩ := hs
    exact cu m.current
  · obtain ⟨slot, key, raw, back, -, -, -, m⟩ := hs
    exact cu m.current
  · obtain ⟨slot, key, raw, back, -, -, -, -, -, m⟩ := hs
    exact cu m.current

/-- Presenting the pending transaction keeps the agreement. -/
theorem present_sequenced {s : State} {x : Transaction} (hs : s.Sequenced) (hp : s.port = none) (hx : s.pending = some x) :
    (s.present x).Sequenced := by
  have cu : ∀ {y}, s.Current y → (s.present x).Current y := by
    rintro y (⟨h, -⟩ | ⟨-, h⟩)
    · rw [hp] at h
      cases h
    · rw [hx] at h
      exact .inl ⟨h, rfl⟩
  have pr : ∀ {slot key off y}, ProbeRunning s slot key off y → ProbeRunning (s.present x) slot key off y := fun h =>
    h.congr rfl rfl rfl (cu h.current)
  unfold State.Sequenced at hs ⊢
  rw [State.present_fsm]
  split at hs
  · rw [hx] at hs
    cases hs.2
  · obtain ⟨w, i, key, off, -, -, -, -, -, -, h⟩ := hs
    rw [hx] at h
    cases h
  · obtain ⟨w, key, h1, h2, h3, h4, h5, h6⟩ := hs
    exact ⟨w, key, h1, h2, h3, h4, h5, cu h6⟩
  · obtain ⟨slot, key, h, -⟩ := hs
    rw [hx] at h
    cases h
  · obtain ⟨slot, key, raw, h1, h2, m⟩ := hs
    exact ⟨slot, key, raw, h1, h2, pr m⟩
  · obtain ⟨slot, key, raw, h1, h2, m⟩ := hs
    exact ⟨slot, key, raw, h1, h2, pr m⟩
  · obtain ⟨slot, key, raw, back, h1, h2, h3, m⟩ := hs
    exact ⟨slot, key, raw, back, h1, h2, h3, pr m⟩
  · obtain ⟨slot, key, raw, back, h1, h2, h3, h4, h5, m⟩ := hs
    exact ⟨slot, key, raw, back, h1, h2, h3, h4, h5, pr m⟩

theorem begun_sequenced {s : State} (h : s.Sequenced) (d : Option Long) : (s.begun d).Sequenced :=
  sequenced_congr h rfl ⟨rfl, rfl, rfl, rfl, rfl⟩ rfl rfl

end Sys2Proof.Machine
end

