-- ==== Sys2Proof/Laws/Operands.lean ====
section
/-! SUPPORT. What the operand forms give: bits of a field, the least set bit, the size of a probed BAR. -/

namespace Sys2Proof.Machine

theorem field_getLsbD {n : Nat} (v : BitVec n) (hi lo j : Nat) :
    (field v hi lo).getLsbD j = (decide (j < 32) && decide (j < hi + 1 - lo) && v.getLsbD (lo + j)) := by
  simp only [field, BitVec.getLsbD_setWidth, BitVec.getLsbD_extractLsb', Bool.and_assoc]

theorem packKey_toNat (s : BitVec 16) (b : BitVec 8) (d : BitVec 5) (f : BitVec 3) :
    (packKey s b d f).toNat = s.toNat * 65536 + b.toNat * 256 + d.toNat * 8 + f.toNat := by
  have hb := b.isLt
  have hd := d.isLt
  have hf := f.isLt
  rw [packKey, BitVec.toNat_append, BitVec.toNat_append, BitVec.toNat_append, ← Nat.shiftLeft_add_eq_or_of_lt hb,
    ← Nat.shiftLeft_add_eq_or_of_lt hd, ← Nat.shiftLeft_add_eq_or_of_lt hf]
  simp only [Nat.shiftLeft_eq]
  omega

theorem packKey_getLsbD (s : BitVec 16) (b : BitVec 8) (d : BitVec 5) (f : BitVec 3) (j : Nat) :
    (packKey s b d f).getLsbD j = if j < 3 then f.getLsbD j else if j < 8 then d.getLsbD (j - 3)
      else if j < 16 then b.getLsbD (j - 8) else s.getLsbD (j - 16) := by
  simp only [packKey, BitVec.getLsbD_append, Nat.sub_sub]
  grind

/-- From a start with nothing set before it, `ctzFrom` finds the least set bit of its range, or runs to its end. -/
theorem ctzFrom_spec (v : Word) : ∀ n i, (∃ j, i ≤ j ∧ j < i + n ∧ v.getLsbD j = true) →
    i ≤ ctzFrom v n i ∧ ctzFrom v n i < i + n ∧ v.getLsbD (ctzFrom v n i) = true ∧
      ∀ j, i ≤ j → j < ctzFrom v n i → v.getLsbD j = false
  | 0, i => by
    rintro ⟨j, h1, h2, -⟩
    omega
  | n + 1, i => by
    rintro ⟨j, h1, h2, h3⟩
    unfold ctzFrom
    by_cases hv : v.getLsbD i = true
    · rw [if_pos hv]
      exact ⟨le_rfl, by omega, hv, fun j h4 h5 => by omega⟩
    · rw [if_neg hv]
      have hne : j ≠ i := by
        rintro rfl
        contradiction
      obtain ⟨a, b, c, d⟩ := ctzFrom_spec v n (i + 1) ⟨j, by omega, by omega, h3⟩
      refine ⟨by omega, by omega, c, fun k hk hlt => ?_⟩
      by_cases hki : k = i
      · simpa [hki] using hv
      · exact d k (by omega) hlt

/-- `ctz` of a nonzero word is its least set bit (R12). -/
theorem ctz_spec {v : Word} (h : v ≠ 0#32) :
    ctz v < 32 ∧ v.getLsbD (ctz v) = true ∧ ∀ j, j < ctz v → v.getLsbD j = false := by
  have : ∃ j, 0 ≤ j ∧ j < 0 + 32 ∧ v.getLsbD j = true := by
    by_contra hc
    push Not at hc
    apply h
    apply BitVec.eq_of_getLsbD_eq
    intro i hi
    simpa using hc i (by omega) (by omega)
  obtain ⟨-, b, c, d⟩ := ctzFrom_spec v 32 0 this
  exact ⟨by simpa [ctz] using b, c, fun j hj => d j (by omega) hj⟩

theorem sizeRemainder_getLsbD_lt (v : Word) {j : Nat} (h : j < 4) : (sizeRemainder v).getLsbD j = false := by
  interval_cases j <;> simp [sizeRemainder]

/-- The trailing zeros of a remainder are at least the four masked bits (R145). -/
theorem four_le_ctz {v : Word} (h : sizeRemainder v ≠ 0#32) : 4 ≤ ctz (sizeRemainder v) := by
  by_contra hc
  have := (ctz_spec h).2.1
  rw [sizeRemainder_getLsbD_lt v (by omega)] at this
  cases this

theorem barSize32_toNat {v : Word} (h : sizeRemainder v ≠ 0#32) :
    (barSize32 v).toNat = 2 ^ ctz (sizeRemainder v) := by
  have hlt := (ctz_spec h).1
  rw [barSize32, BitVec.toNat_shiftLeft, Nat.shiftLeft_eq]
  simp only [BitVec.toNat_ofNat, Nat.reducePow, Nat.reduceMod, one_mul]
  exact Nat.mod_eq_of_lt (Nat.pow_lt_pow_right (by norm_num) hlt)

/-- A flag result is 0 or 1 (R94). -/
theorem flag_eq {n : Nat} (v : BitVec n) (i : Nat) : field v i i = if v.getLsbD i then 1#32 else 0#32 := by
  apply BitVec.eq_of_getLsbD_eq
  intro j hj
  rw [field_getLsbD]
  by_cases h : j = 0
  · subst h
    cases v.getLsbD i <;> simp
  · have : ¬ j < i + 1 - i := by omega
    have h2 : (1#32).getLsbD j = false := by
      simp
      omega
    split <;> simp_all

theorem low16_getLsbD (a : Word) {i : Nat} (h : i < 16) : (low16 a).getLsbD i = a.getLsbD i := by
  simp [low16, h]

/-- The kind of a header type by its 7 bits (R107). -/
theorem headerKind_field (a : Word) : headerKind (field a 22 16) = if a.extractLsb' 16 7 = 0#7 then 0#32
    else if a.extractLsb' 16 7 = 1#7 then 1#32 else if a.extractLsb' 16 7 = 2#7 then 2#32 else 3#32 := by
  have h : field a 22 16 = (a.extractLsb' 16 7).setWidth 32 := rfl
  rw [h]
  generalize a.extractLsb' 16 7 = y
  revert y
  decide +kernel

/-- Nothing is left of a read-back but its low four bits (R141). -/
theorem sizeRemainder_eq_zero (b : Word) : sizeRemainder b = 0#32 ↔ b.toNat < 16 := by
  have e : (sizeRemainder b).toNat = b.toNat / 16 * 16 := by
    have h : sizeRemainder b = (b >>> 4) <<< 4 := by
      apply BitVec.eq_of_getLsbD_eq
      intro j hj
      unfold sizeRemainder
      interval_cases j <;> simp
    rw [h, BitVec.toNat_shiftLeft, BitVec.toNat_ushiftRight, Nat.shiftLeft_eq, Nat.shiftRight_eq_div_pow]
    have := b.isLt
    omega
  rw [← BitVec.toNat_inj, e, BitVec.toNat_ofNat]
  omega

theorem sizeRemainder_getLsbD (b : Word) {j : Nat} (h : 4 ≤ j) (h' : j < 32) :
    (sizeRemainder b).getLsbD j = b.getLsbD j := by
  unfold sizeRemainder
  interval_cases j <;> simp

/-- The size of a BAR is the least set bit of its read-back above bit 3 (R141, R145). -/
theorem barSize32_spec {b : Word} (h : 16 ≤ b.toNat) : ∃ k, 4 ≤ k ∧ k < 32 ∧ b.getLsbD k = true ∧
    (∀ j, 4 ≤ j → j < k → b.getLsbD j = false) ∧ (barSize32 b).setWidth 64 = BitVec.ofNat 64 (2 ^ k) := by
  have hn : sizeRemainder b ≠ 0#32 := by
    rw [ne_eq, sizeRemainder_eq_zero]
    omega
  obtain ⟨h1, h2, h3⟩ := ctz_spec hn
  have h4 := four_le_ctz hn
  refine ⟨_, h4, h1, by rw [← sizeRemainder_getLsbD b h4 h1]; exact h2, fun j hj hlt => ?_, ?_⟩
  · rw [← sizeRemainder_getLsbD b hj (by omega)]
    exact h3 j hlt
  · apply BitVec.eq_of_toNat_eq
    rw [BitVec.toNat_setWidth, barSize32_toNat hn, BitVec.toNat_ofNat]

end Sys2Proof.Machine
end

