-- ==== Sys2Proof/Laws/PerInstr.lean ====
section
/-! SUPPORT. Per command: its encoding lies in a row of the opcode map, and that row builds the command back. -/

namespace Sys2Proof.Laws.Encoding

/-- The word of a well-formed command selects a row of the opcode map whose fields read the command back (R69, R71). -/
def Statement (i : Instr) : Prop :=
  i.wellFormed = true → ∃ r ∈ opcodeRows, r.selects (encode i) = true ∧ r.build (encode i) = i

theorem plain {i : Instr} (w : Word) (hw : encode i = w) (h : plainRow w i ∈ opcodeRows) : Statement i :=
  fun _ => ⟨_, h, by simp [plainRow, OpcodeRow.selects, hw, and_ones], rfl⟩

/-- Whether a row, given by its pattern, mask and reader, reads back the command whose word is `w`. -/
def readsBack (r : OpcodeRow) (w : Word) (i : Instr) : Bool := r.selects w && r.build w == i

theorem fields {i : Instr} (r : OpcodeRow) (h : r ∈ opcodeRows) (hs : readsBack r (encode i) i = true) : Statement i :=
  fun _ => ⟨r, h, by simpa [readsBack] using hs⟩

theorem addrEncode : Statement .addrEncode := plain 0x10#32 (by decide) (List.get_mem opcodeRows ⟨0, by decide⟩)

theorem addrSegment : Statement .addrSegment := plain 0x11#32 (by decide) (List.get_mem opcodeRows ⟨1, by decide⟩)

theorem addrBus : Statement .addrBus := plain 0x12#32 (by decide) (List.get_mem opcodeRows ⟨2, by decide⟩)

theorem addrDevice : Statement .addrDevice := plain 0x13#32 (by decide) (List.get_mem opcodeRows ⟨3, by decide⟩)

theorem addrFunction : Statement .addrFunction := plain 0x14#32 (by decide) (List.get_mem opcodeRows ⟨4, by decide⟩)

theorem advFunction : Statement .advFunction := plain 0x18#32 (by decide) (List.get_mem opcodeRows ⟨5, by decide⟩)

theorem advDevice : Statement .advDevice := plain 0x19#32 (by decide) (List.get_mem opcodeRows ⟨6, by decide⟩)

theorem advBus : Statement .advBus := plain 0x1A#32 (by decide) (List.get_mem opcodeRows ⟨7, by decide⟩)

theorem advSegment : Statement .advSegment := plain 0x1B#32 (by decide) (List.get_mem opcodeRows ⟨8, by decide⟩)

theorem bits32 (hi lo : Nat) : Statement (.bits32 hi lo) := by
  intro h
  have hw : hi < 32 ∧ lo < 32 := by simpa [Instr.wellFormed] using h
  have all : ∀ hi < 32, ∀ lo < 32, readsBack (opcodeRows[9]'(by decide)) (encode (.bits32 hi lo)) (.bits32 hi lo) = true := by
    decide +kernel
  exact fields _ (List.getElem_mem _) (all hi hw.1 lo hw.2) h

theorem bits16 (hi lo : Nat) : Statement (.bits16 hi lo) := by
  intro h
  have hw : hi < 32 ∧ lo < 32 := by simpa [Instr.wellFormed] using h
  have all : ∀ hi < 32, ∀ lo < 32, readsBack (opcodeRows[10]'(by decide)) (encode (.bits16 hi lo)) (.bits16 hi lo) = true := by
    decide +kernel
  exact fields _ (List.getElem_mem _) (all hi hw.1 lo hw.2) h

theorem fVendorId : Statement .fVendorId := plain 0x30#32 (by decide) (List.get_mem opcodeRows ⟨11, by decide⟩)

theorem fDeviceId : Statement .fDeviceId := plain 0x31#32 (by decide) (List.get_mem opcodeRows ⟨12, by decide⟩)

theorem fCommand : Statement .fCommand := plain 0x32#32 (by decide) (List.get_mem opcodeRows ⟨13, by decide⟩)

theorem fStatus : Statement .fStatus := plain 0x33#32 (by decide) (List.get_mem opcodeRows ⟨14, by decide⟩)

theorem fRevision : Statement .fRevision := plain 0x34#32 (by decide) (List.get_mem opcodeRows ⟨15, by decide⟩)

theorem fProgIf : Statement .fProgIf := plain 0x35#32 (by decide) (List.get_mem opcodeRows ⟨16, by decide⟩)

theorem fSubclass : Statement .fSubclass := plain 0x36#32 (by decide) (List.get_mem opcodeRows ⟨17, by decide⟩)

theorem fBaseclass : Statement .fBaseclass := plain 0x37#32 (by decide) (List.get_mem opcodeRows ⟨18, by decide⟩)

theorem fCacheline : Statement .fCacheline := plain 0x38#32 (by decide) (List.get_mem opcodeRows ⟨19, by decide⟩)

theorem fLatency : Statement .fLatency := plain 0x39#32 (by decide) (List.get_mem opcodeRows ⟨20, by decide⟩)

theorem fHeaderType : Statement .fHeaderType := plain 0x3A#32 (by decide) (List.get_mem opcodeRows ⟨21, by decide⟩)

theorem fMultifunction : Statement .fMultifunction := plain 0x3B#32 (by decide) (List.get_mem opcodeRows ⟨22, by decide⟩)

theorem fBist : Statement .fBist := plain 0x3C#32 (by decide) (List.get_mem opcodeRows ⟨23, by decide⟩)

theorem fCapPtr : Statement .fCapPtr := plain 0x3D#32 (by decide) (List.get_mem opcodeRows ⟨24, by decide⟩)

theorem sIntStatus : Statement .sIntStatus := plain 0x40#32 (by decide) (List.get_mem opcodeRows ⟨25, by decide⟩)

theorem sCapList : Statement .sCapList := plain 0x41#32 (by decide) (List.get_mem opcodeRows ⟨26, by decide⟩)

theorem s66mhz : Statement .s66mhz := plain 0x42#32 (by decide) (List.get_mem opcodeRows ⟨27, by decide⟩)

theorem sFastB2b : Statement .sFastB2b := plain 0x43#32 (by decide) (List.get_mem opcodeRows ⟨28, by decide⟩)

theorem sMasterDpe : Statement .sMasterDpe := plain 0x44#32 (by decide) (List.get_mem opcodeRows ⟨29, by decide⟩)

theorem sDevsel : Statement .sDevsel := plain 0x45#32 (by decide) (List.get_mem opcodeRows ⟨30, by decide⟩)

theorem sSigTabort : Statement .sSigTabort := plain 0x46#32 (by decide) (List.get_mem opcodeRows ⟨31, by decide⟩)

theorem sRcvTabort : Statement .sRcvTabort := plain 0x47#32 (by decide) (List.get_mem opcodeRows ⟨32, by decide⟩)

theorem sRcvMabort : Statement .sRcvMabort := plain 0x48#32 (by decide) (List.get_mem opcodeRows ⟨33, by decide⟩)

theorem sSigSerr : Statement .sSigSerr := plain 0x49#32 (by decide) (List.get_mem opcodeRows ⟨34, by decide⟩)

theorem sDetPerr : Statement .sDetPerr := plain 0x4A#32 (by decide) (List.get_mem opcodeRows ⟨35, by decide⟩)

theorem cfgIdentity : Statement .cfgIdentity := plain 0x50#32 (by decide) (List.get_mem opcodeRows ⟨36, by decide⟩)

theorem cfgStatus : Statement .cfgStatus := plain 0x51#32 (by decide) (List.get_mem opcodeRows ⟨37, by decide⟩)

theorem cfgRevClass : Statement .cfgRevClass := plain 0x52#32 (by decide) (List.get_mem opcodeRows ⟨38, by decide⟩)

theorem cfgHeaderType : Statement .cfgHeaderType := plain 0x53#32 (by decide) (List.get_mem opcodeRows ⟨39, by decide⟩)

theorem cfgMultifunction : Statement .cfgMultifunction := plain 0x54#32 (by decide) (List.get_mem opcodeRows ⟨40, by decide⟩)

theorem cfgEndpoint : Statement .cfgEndpoint := plain 0x55#32 (by decide) (List.get_mem opcodeRows ⟨41, by decide⟩)

theorem cfgCapPointer : Statement .cfgCapPointer := plain 0x56#32 (by decide) (List.get_mem opcodeRows ⟨42, by decide⟩)

theorem barProbe (slot : Nat) : Statement (.barProbe slot) := by
  intro h
  have hw : slot < 8 := by simpa [Instr.wellFormed] using h
  have all : ∀ slot < 8, readsBack (opcodeRows[43]'(by decide)) (encode (.barProbe slot)) (.barProbe slot) = true := by
    decide +kernel
  exact fields _ (List.getElem_mem _) (all slot hw) h

end Sys2Proof.Laws.Encoding
end

