-- ==== Sys2Proof/Tests/Slice0.lean ====
section
/-! SUPPORT. The model's own tests, expected results from spec/95_test_vectors.md or worked out by hand from the rule named, and for
each obligation with hypotheses a theorem that shows states and operands which meet them. -/

namespace Sys2Proof.Tests

open Sys2Proof Sys2Proof.Machine

/-! ### Well-formedness and decoding -/

theorem test_wellFormed_refuses :
    Instr.wellFormed (.bits32 32 0) = false ∧ Instr.wellFormed (.bits32 0 32) = false ∧
    Instr.wellFormed (.bits16 32 0) = false ∧ Instr.wellFormed (.bits16 0 32) = false ∧
    Instr.wellFormed (.barProbe 8) = false := by decide

theorem test_wellFormed_accepts :
    Instr.wellFormed (.bits32 0 31) = true ∧ Instr.wellFormed (.bits16 31 31) = true ∧
    Instr.wellFormed (.barProbe 7) = true ∧ Instr.wellFormed .addrEncode = true := by decide

/-- Address unit: the words of R73, bit by bit. -/
theorem test_decode_address :
    decode 0b00010000#32 = .ok .addrEncode ∧ decode 0b00010001#32 = .ok .addrSegment ∧
    decode 0b00010010#32 = .ok .addrBus ∧ decode 0b00010011#32 = .ok .addrDevice ∧
    decode 0b00010100#32 = .ok .addrFunction ∧ decode 0b00011000#32 = .ok .advFunction ∧
    decode 0b00011001#32 = .ok .advDevice ∧ decode 0b00011010#32 = .ok .advBus ∧
    decode 0b00011011#32 = .ok .advSegment := by decide

/-- Field extractor: HI in bits 28:24, LO in bits 20:16 (R68; L2-B1 to L2-B7). -/
theorem test_decode_bit_ranges :
    decode 0b000_10110_000_10000_00000_000_00100000#32 = .ok (.bits32 22 16) ∧
    decode 0b000_11111_000_00000_00000_000_00100000#32 = .ok (.bits32 31 0) ∧
    decode 0b000_00011_000_00101_00000_000_00100000#32 = .ok (.bits32 3 5) ∧
    decode 0b000_01010_000_01001_00000_000_00100001#32 = .ok (.bits16 10 9) ∧
    decode 0b000_10000_000_00000_00000_000_00100001#32 = .ok (.bits16 16 0) := by decide

theorem test_decode_extractors :
    decode 0b00110000#32 = .ok .fVendorId ∧ decode 0b00110001#32 = .ok .fDeviceId ∧
    decode 0b00110010#32 = .ok .fCommand ∧ decode 0b00110011#32 = .ok .fStatus ∧
    decode 0b00110100#32 = .ok .fRevision ∧ decode 0b00110101#32 = .ok .fProgIf ∧
    decode 0b00110110#32 = .ok .fSubclass ∧ decode 0b00110111#32 = .ok .fBaseclass ∧
    decode 0b00111000#32 = .ok .fCacheline ∧ decode 0b00111001#32 = .ok .fLatency ∧
    decode 0b00111010#32 = .ok .fHeaderType ∧ decode 0b00111011#32 = .ok .fMultifunction ∧
    decode 0b00111100#32 = .ok .fBist ∧ decode 0b00111101#32 = .ok .fCapPtr := by decide

theorem test_decode_status :
    decode 0b01000000#32 = .ok .sIntStatus ∧ decode 0b01000001#32 = .ok .sCapList ∧
    decode 0b01000010#32 = .ok .s66mhz ∧ decode 0b01000011#32 = .ok .sFastB2b ∧
    decode 0b01000100#32 = .ok .sMasterDpe ∧ decode 0b01000101#32 = .ok .sDevsel ∧
    decode 0b01000110#32 = .ok .sSigTabort ∧ decode 0b01000111#32 = .ok .sRcvTabort ∧
    decode 0b01001000#32 = .ok .sRcvMabort ∧ decode 0b01001001#32 = .ok .sSigSerr ∧
    decode 0b01001010#32 = .ok .sDetPerr := by decide

theorem test_decode_header :
    decode 0b01010000#32 = .ok .cfgIdentity ∧ decode 0b01010001#32 = .ok .cfgStatus ∧
    decode 0b01010010#32 = .ok .cfgRevClass ∧ decode 0b01010011#32 = .ok .cfgHeaderType ∧
    decode 0b01010100#32 = .ok .cfgMultifunction ∧ decode 0b01010101#32 = .ok .cfgEndpoint ∧
    decode 0b01010110#32 = .ok .cfgCapPointer := by decide

/-- BAR probe: SLOT in bits 10:8 (R68, R133; L2-E7: slots 6 and 7 decode). -/
theorem test_decode_bar :
    decode 0b000_01100000#32 = .ok (.barProbe 0) ∧ decode 0b101_01100000#32 = .ok (.barProbe 5) ∧
    decode 0b111_01100000#32 = .ok (.barProbe 7) := by decide

/-- The illegal words of L2-E1 to L2-E6 and their kinds (R74). -/
theorem test_decode_illegal :
    decode 0x00000000#32 = .error (.unlistedOpcode 0x00) ∧ decode 0x00000015#32 = .error (.unlistedOpcode 0x15) ∧
    decode 0x00000110#32 = .error (.nonzeroReserved 0x10) ∧ decode 0x00000860#32 = .error (.nonzeroReserved 0x60) ∧
    decode 0x00200020#32 = .error (.nonzeroReserved 0x20) ∧ decode 0x80000050#32 = .error (.nonzeroReserved 0x50) := by
  decide

/-! ### Small states -/

/-- The input signals that present a command. -/
def cmdPins (w a b : Word) : Pins := { Pins.quiet with cmdValid := true, cmd := w, opa := a, opb := b }

/-- The input signals that complete transaction `n` with `v`. -/
def donePins (n : Nat) (v : Word) : Pins := { Pins.quiet with done := some ⟨n, v⟩ }

/-- The input signals of a host read. -/
def readPins (r : HostReg) : Pins := { Pins.quiet with read := some r }

/-- The reset state with inputs to come. -/
def ready (ps : List Pins) : State := { State.reset with inputs := ps }

/-- The reset state with the inputs `p` already sampled. -/
def sampled (p : Pins) : State := { State.reset with pins := p }

/-- A header command waiting in `f` for its read at `off`, of the function with key 0x18. -/
def headerAt (w : Word) (f : Fsm) (off : Off) (p : Pins) (ps : List Pins) : State :=
  { State.reset with
    fsm := f, busy := true, cmdL := some w, keyL := some 0x18#32, offL := some off, rawL := some 0x00100000#32
    port := some (.read 0x18#32 off), issued := 1, history := [.issued (.read 0x18#32 off)], pins := p, inputs := ps }

/-- What a probe at `off` presents in `f`, of the function with key 0x100. -/
def probeRequest (f : Fsm) (off : Off) (raw : Word) : Transaction :=
  match f with
  | .barOnesWr => .write 0x100#32 off allOnes
  | .barRestoreWr => .write 0x100#32 off raw
  | .barUpperRd => .read 0x100#32 (off + 4#12)
  | _ => .read 0x100#32 off

/-- A probe of `slot` waiting in `f`, with its trace (R148). -/
def probeAt (slot : Nat) (f : Fsm) (raw back : Word) (p : Pins) (ps : List Pins) : State :=
  let off := barOffset slot
  let h := probeTrace 0x100#32 off raw back f
  { State.reset with
    fsm := f, busy := true, cmdL := some (encode (.barProbe slot)), keyL := some 0x100#32
    offL := some (if f = .barUpperRd then off + 4#12 else off), rawL := some raw, backL := some back
    port := some (probeRequest f off raw), issued := (issuedIn h).length, history := h, pins := p, inputs := ps }

/-- The same probe one step earlier: its transaction of `f` is still to be presented (R46). -/
def probePending (slot : Nat) (f : Fsm) (raw back : Word) (p : Pins) (ps : List Pins) : State :=
  let s := probeAt slot f raw back p ps
  { s with port := none, pending := s.port, issued := s.issued - 1, history := s.history.dropLast }

/-- The outcome is a next state with the property `p`. -/
def nextIs (o : StepOutcome) (p : State → Bool) : Bool :=
  match o with
  | .next t => p t
  | _ => false

/-- The outcome is this fault. -/
def faultIs (o : StepOutcome) (f : Fault) : Bool :=
  match o with
  | .fault g => g == f
  | _ => false

/-- A command presented in the reset state completes in that step with these results and no transaction. -/
def gives (w a b : Word) (o : BitVec 2) (e : BitVec 4) (v : Option Word) : Bool :=
  nextIs (step (ready [cmdPins w a b])) fun t =>
    t.outcome == o && t.err == e && t.val0 == v && !t.busy && t.port.isNone && t.history.isEmpty

/-- A header command whose read at `off` completes with `v` completes with these results. -/
def readGives (w : Word) (off : Off) (v : Word) (o : BitVec 2) (vals : List (Option Word)) : Bool :=
  nextIs (step (headerAt w .hdrRd0 off Pins.quiet [donePins 0 v])) fun t =>
    t.outcome == o && t.err == 0#4 && [t.val0, t.val1, t.val2, t.val3] == vals && !t.busy

/-! ### Address unit -/

/-- L2-A1 to L2-A3 and L1-1. -/
theorem test_addr_encode :
    gives 0x10#32 0x0000FFFF#32 0x00071FFF#32 1#2 0#4 (some 0xFFFFFFFF#32) = true ∧
    gives 0x10#32 0x00000001#32 0x00040302#32 1#2 0#4 (some 0x0001021C#32) = true := by decide

/-- L2-A4 to L2-A7. -/
theorem test_addr_encode_range :
    gives 0x10#32 0x00000000#32 0x00002000#32 3#2 4#4 none = true ∧
    gives 0x10#32 0x00000000#32 0x00080000#32 3#2 4#4 none = true ∧
    gives 0x10#32 0x00010000#32 0x00000000#32 3#2 4#4 none = true ∧
    gives 0x10#32 0x00000000#32 0x01000000#32 3#2 4#4 none = true := by decide

/-- L1-1 and the accessors' line of L2-A. -/
theorem test_accessors :
    gives 0x11#32 0x0001021C#32 0#32 1#2 0#4 (some 1#32) = true ∧
    gives 0x12#32 0x0001021C#32 0#32 1#2 0#4 (some 2#32) = true ∧
    gives 0x13#32 0x0001021C#32 0#32 1#2 0#4 (some 3#32) = true ∧
    gives 0x14#32 0x0001021C#32 0#32 1#2 0#4 (some 4#32) = true ∧
    gives 0x11#32 0x80000000#32 0#32 1#2 0#4 (some 0x8000#32) = true ∧
    gives 0x13#32 0x000000F8#32 0#32 1#2 0#4 (some 31#32) = true := by decide

/-- L2-A8: ADV_FUNCTION. -/
theorem test_adv_function :
    gives 0x18#32 0xFFFFFFFE#32 0#32 1#2 0#4 (some 0xFFFFFFFF#32) = true ∧
    gives 0x18#32 0xFFFFFFFF#32 0#32 3#2 1#4 none = true := by decide

/-- L2-A8 to L2-A10: ADV_DEVICE. -/
theorem test_adv_device :
    gives 0x19#32 0x0001021C#32 0#32 1#2 0#4 (some 0x00010220#32) = true ∧
    gives 0x19#32 0x000000F8#32 0#32 1#2 0#4 (some 0x00000100#32) = true ∧
    gives 0x19#32 0xFFFFFFF8#32 0#32 3#2 1#4 none = true := by decide

/-- L2-A8: ADV_BUS. -/
theorem test_adv_bus :
    gives 0x1A#32 0xFFFFFEFF#32 0#32 1#2 0#4 (some 0xFFFFFF00#32) = true ∧
    gives 0x1A#32 0xFFFFFF00#32 0#32 3#2 1#4 none = true := by decide

/-- L2-A8: ADV_SEGMENT. -/
theorem test_adv_segment :
    gives 0x1B#32 0xFFFEFFFF#32 0#32 1#2 0#4 (some 0xFFFF0000#32) = true ∧
    gives 0x1B#32 0xFFFF0000#32 0#32 3#2 1#4 none = true := by decide

/-! ### Field extractor -/

/-- L2-B1 to L2-B4. -/
theorem test_bits32 :
    gives 0x16100020#32 0x00810000#32 0#32 1#2 0#4 (some 1#32) = true ∧
    gives 0x1F000020#32 0xDEADBEEF#32 0#32 1#2 0#4 (some 0xDEADBEEF#32) = true ∧
    gives 0x1F1F0020#32 0x80000000#32 0#32 1#2 0#4 (some 1#32) = true ∧
    gives 0x03050020#32 0xFFFFFFFF#32 0#32 3#2 6#4 none = true := by decide

/-- L2-B5 to L2-B7. -/
theorem test_bits16 :
    gives 0x0F000021#32 0xFFFF0000#32 0#32 1#2 0#4 (some 0#32) = true ∧
    gives 0x0A090021#32 0x00000600#32 0#32 1#2 0#4 (some 3#32) = true ∧
    gives 0x10000021#32 0xFFFFFFFF#32 0#32 3#2 6#4 none = true := by decide

/-- L2-B8 to L2-B13, L2-B19. -/
theorem test_field_extractors :
    gives 0x30#32 0xFFFFFFFF#32 0#32 1#2 0#4 (some 0xFFFF#32) = true ∧
    gives 0x31#32 0x12348086#32 0#32 1#2 0#4 (some 0x1234#32) = true ∧
    gives 0x32#32 0x02100007#32 0#32 1#2 0#4 (some 0x0007#32) = true ∧
    gives 0x33#32 0x02100007#32 0#32 1#2 0#4 (some 0x0210#32) = true ∧
    gives 0x34#32 0x0C033001#32 0#32 1#2 0#4 (some 0x01#32) = true ∧
    gives 0x35#32 0x0C033001#32 0#32 1#2 0#4 (some 0x30#32) = true ∧
    gives 0x36#32 0x0C033001#32 0#32 1#2 0#4 (some 0x03#32) = true ∧
    gives 0x37#32 0x0C033001#32 0#32 1#2 0#4 (some 0x0C#32) = true ∧
    gives 0x38#32 0x80814010#32 0#32 1#2 0#4 (some 0x10#32) = true ∧
    gives 0x39#32 0x80814010#32 0#32 1#2 0#4 (some 0x40#32) = true ∧
    gives 0x3C#32 0x80814010#32 0#32 1#2 0#4 (some 0x80#32) = true ∧
    gives 0x3D#32 0xFFFFFF43#32 0#32 1#2 0#4 (some 0x43#32) = true := by decide

/-- L2-B14 to L2-B16: type and kind. -/
theorem test_f_header_type :
    nextIs (step (ready [cmdPins 0x3A#32 0x00800000#32 0#32])) (fun t => t.val0 == some 0#32 && t.val1 == some 0#32)
      = true ∧
    nextIs (step (ready [cmdPins 0x3A#32 0x00020000#32 0#32])) (fun t => t.val0 == some 2#32 && t.val1 == some 2#32)
      = true ∧
    nextIs (step (ready [cmdPins 0x3A#32 0x007F0000#32 0#32])) (fun t => t.val0 == some 0x7F#32 && t.val1 == some 3#32)
      = true := by decide

/-- L2-B17, L2-B18. -/
theorem test_f_multifunction :
    gives 0x3B#32 0x007F0000#32 0#32 1#2 0#4 (some 0#32) = true ∧
    gives 0x3B#32 0x00800000#32 0#32 1#2 0#4 (some 1#32) = true := by decide

/-- L2-B21: every decoder on the word with all bits set; DEVSEL gives 3. -/
theorem test_status_ones :
    ([0x40#32, 0x41#32, 0x42#32, 0x43#32, 0x44#32, 0x46#32, 0x47#32, 0x48#32, 0x49#32, 0x4A#32].all fun w =>
      gives w 0x0000FFFF#32 0#32 1#2 0#4 (some 1#32)) = true ∧
    gives 0x45#32 0x0000FFFF#32 0#32 1#2 0#4 (some 3#32) = true := by decide

/-- L2-B22: bits 31:16, bit 6 and bits 2:0 reach no decoder. -/
theorem test_status_reserved :
    ([0x40#32, 0x41#32, 0x42#32, 0x43#32, 0x44#32, 0x45#32, 0x46#32, 0x47#32, 0x48#32, 0x49#32, 0x4A#32].all fun w =>
      gives w 0xFFFF0047#32 0#32 1#2 0#4 (some 0#32)) = true := by decide

/-- One bit of the status word at a time reaches only its own decoder (R39, R113 to R123). -/
theorem test_status_single_bits :
    gives 0x41#32 0x0010#32 0#32 1#2 0#4 (some 1#32) = true ∧ gives 0x40#32 0x0010#32 0#32 1#2 0#4 (some 0#32) = true ∧
    gives 0x45#32 0x0200#32 0#32 1#2 0#4 (some 1#32) = true ∧ gives 0x45#32 0x0400#32 0#32 1#2 0#4 (some 2#32) = true ∧
    gives 0x46#32 0x0800#32 0#32 1#2 0#4 (some 1#32) = true ∧ gives 0x4A#32 0x8000#32 0#32 1#2 0#4 (some 1#32) = true := by
  decide

/-! ### Header reader -/

/-- Acceptance of a header command: R124. -/
theorem test_header_accept :
    nextIs (step (ready [cmdPins 0x52#32 0x18#32 0#32])) (fun t =>
      t.fsm == .hdrRd0 && t.busy && t.port == some (.read 0x18#32 0x08#12) && t.outcome == 0#2 &&
        t.keyL == some 0x18#32 && t.offL == some 0x08#12 && t.cmdL == some 0x52#32) = true := by decide

/-- L2-C1 to L2-C5. -/
theorem test_header_reads :
    readGives 0x50#32 0x00#12 0xFFFFFFFF#32 1#2 [some 0xFFFF#32, some 0xFFFF#32, none, none] = true ∧
    readGives 0x51#32 0x04#12 0x06300147#32 1#2 [some 0x0630#32, none, none, none] = true ∧
    readGives 0x52#32 0x08#12 0xFF0102A5#32 1#2 [some 0xA5#32, some 0xFF#32, some 0x01#32, some 0x02#32] = true ∧
    readGives 0x53#32 0x0C#12 0x00FF0000#32 1#2 [some 0x7F#32, some 3#32, none, none] = true ∧
    readGives 0x54#32 0x0C#12 0x00FF0000#32 1#2 [some 1#32, none, none, none] = true := by decide

/-- L2-C6 to L2-C8. -/
theorem test_cfg_endpoint :
    readGives 0x55#32 0x0C#12 0x00800000#32 1#2 [none, none, none, none] = true ∧
    readGives 0x55#32 0x0C#12 0x00020000#32 2#2 [none, none, none, none] = true ∧
    readGives 0x55#32 0x0C#12 0x007F0000#32 2#2 [none, none, none, none] = true := by decide

/-- L2-C11 and the first step of L2-C10. -/
theorem test_cfg_cap_pointer_gate :
    readGives 0x56#32 0x04#12 0xFFEFFFFF#32 1#2 [some 0#32, none, none, none] = true ∧
    nextIs (step (headerAt 0x56#32 .hdrRd0 0x04#12 Pins.quiet [donePins 0 0x00100000#32])) (fun t =>
      t.fsm == .hdrRd1 && t.busy && t.port.isNone && t.pending == some (.read 0x18#32 0x34#12)) = true := by decide

/-- The second step of L2-C10. -/
theorem test_cfg_cap_pointer_value :
    nextIs (step (headerAt 0x56#32 .hdrRd1 0x34#12 Pins.quiet [donePins 0 0xFFFFFF43#32])) (fun t =>
      t.outcome == 1#2 && t.val0 == some 0x43#32 && !t.busy) = true := by decide

/-! ### BAR probe -/

/-- L2-D1, and acceptance for slot 5 (R134). -/
theorem test_bar_accept :
    gives 0x660#32 0#32 0#32 3#2 5#4 none = true ∧
    nextIs (step (ready [cmdPins 0x560#32 0x100#32 0#32])) (fun t =>
      t.fsm == .barRawRd && t.busy && t.port == some (.read 0x100#32 0x24#12)) = true := by decide

/-- One step each of L2-D4, L2-D5, L2-D11 (acceptance to completion), L2-D7, L2-D9, L2-D11, L2-D13. -/
theorem test_bar_steps :
    nextIs (step (probeAt 0 .barRawRd 0#32 0#32 Pins.quiet [donePins 0 0xFFFFFFFF#32])) (fun t =>
      t.outcome == 1#2 && t.barKind == some 2#2 && t.barAddr == some 0xFFFFFFFC#64 && t.barSize.isNone) = true ∧
    nextIs (step (probeAt 0 .barRawRd 0#32 0#32 Pins.quiet [donePins 0 0x00000006#32])) (fun t =>
      t.outcome == 3#2 && t.err == 2#4 && t.port.isNone) = true ∧
    nextIs (step (probeAt 2 .barRawRd 0#32 0#32 Pins.quiet [donePins 0 0xC000000C#32])) (fun t =>
      t.fsm == .barOnesWr && t.port.isNone && t.pending == some (.write 0x100#32 0x18#12 0xFFFFFFFF#32)) = true ∧
    nextIs (step (probeAt 2 .barOnesWr 0xC000000C#32 0#32 Pins.quiet [donePins 1 0#32])) (fun t =>
      t.fsm == .barBackRd && t.port.isNone && t.pending == some (.read 0x100#32 0x18#12)) = true ∧
    nextIs (step (probeAt 2 .barBackRd 0xC000000C#32 0#32 Pins.quiet [donePins 2 0xFFF0000C#32])) (fun t =>
      t.fsm == .barRestoreWr && t.port.isNone && t.pending == some (.write 0x100#32 0x18#12 0xC000000C#32)) = true ∧
    nextIs (step (probeAt 2 .barRestoreWr 0xC000000C#32 0xFFF0000C#32 Pins.quiet [donePins 3 0#32])) (fun t =>
      t.fsm == .barUpperRd && t.port.isNone && t.pending == some (.read 0x100#32 0x1C#12)) = true ∧
    nextIs (step (probeAt 2 .barUpperRd 0xC000000C#32 0xFFF0000C#32 Pins.quiet [donePins 4 1#32])) (fun t =>
      t.outcome == 1#2 && t.barKind == some 1#2 && t.barAddr == some 0x00000001C0000000#64 &&
        t.barSize == some 0x100000#64 && t.barPf == some 1#1) = true := by decide +kernel

/-- The completing steps of L1-6, L2-D7 and L2-D9, and the upper half of slot 5, L2-D13. -/
theorem test_bar_completions :
    nextIs (step (probeAt 0 .barRestoreWr 0#32 0#32 Pins.quiet [donePins 3 0#32])) (fun t =>
      t.outcome == 2#2 && t.err == 0#4 && t.barKind.isNone && t.barSize.isNone) = true ∧
    nextIs (step (probeAt 0 .barRestoreWr 8#32 8#32 Pins.quiet [donePins 3 0#32])) (fun t =>
      t.outcome == 3#2 && t.err == 3#4) = true ∧
    nextIs (step (probeAt 0 .barRestoreWr 0x80000000#32 0x80000000#32 Pins.quiet [donePins 3 0#32])) (fun t =>
      t.outcome == 1#2 && t.barKind == some 0#2 && t.barAddr == some 0x80000000#64 &&
        t.barSize == some 0x80000000#64 && t.barPf == some 0#1) = true ∧
    nextIs (step (probeAt 5 .barRestoreWr 0xE0000004#32 0xFFFFF004#32 Pins.quiet [donePins 3 0#32])) (fun t =>
      t.pending == some (.read 0x100#32 0x28#12)) = true := by decide +kernel

/-- R46: the restoring write of L2-D11 is presented in the step after the read-back, and a completion that comes too early is not its
own. -/
theorem test_presents_in_next_step :
    nextIs (step (probePending 2 .barRestoreWr 0xC000000C#32 0xFFF0000C#32 Pins.quiet [donePins 3 0#32])) (fun t =>
      t.fsm == .barRestoreWr && t.busy && t.port == some (.write 0x100#32 0x18#12 0xC000000C#32) && t.pending.isNone &&
        t.issued == 4 && t.history.length == 7) = true := by decide

/-! ### The machine -/

/-- L2-E1, L2-E4, L2-E6: illegal commands complete at once without a transaction. -/
theorem test_illegal_commands :
    gives 0x00000000#32 0#32 0#32 3#2 7#4 none = true ∧ gives 0x00000860#32 0#32 0#32 3#2 7#4 none = true ∧
    gives 0x80000050#32 0#32 0#32 3#2 7#4 none = true := by decide

/-- L2-F2: reset in the middle of a probe, and the late completion of the abandoned read. -/
theorem test_reset_during_probe :
    nextIs (step (probeAt 0 .barBackRd 0xFE000000#32 0#32 Pins.quiet [{ Pins.quiet with rst := true }])) (fun t =>
      t.fsm == .idle && !t.busy && t.rawL.isNone && t.outcome == 0#2 && t.port.isNone && t.issued == 3) = true ∧
    nextIs (step { probeAt 0 .barRawRd 0#32 0#32 Pins.quiet [donePins 2 1#32] with issued := 4 }) (fun t =>
      t.fsm == .barRawRd && t.busy && t.rawL == some 0#32) = true := by decide

/-- R15, R22: a read of ⊥ faults, a read of BUSY and R_ERR gives the value. -/
theorem test_host_reads :
    faultIs (step (ready [readPins .val0])) (.readOfBottom .val0) = true ∧
    faultIs (step (ready [readPins .barSize])) (.readOfBottom .barSize) = true ∧
    nextIs (step (ready [readPins .busy])) (fun t => t.hostData == some 0#64) = true ∧
    nextIs (step { ready [readPins .err] with err := 7#4 }) (fun t => t.hostData == some 7#64) = true := by decide

/-- R51: no input left while a transaction is outstanding. -/
theorem test_stall : faultIs (step (probeAt 0 .barBackRd 0#32 0#32 Pins.quiet [])) .stalled = true := by decide

/-- The host's entry point runs the word it is given as the first command after reset. -/
theorem test_withFetchWord :
    nextIs (step (State.reset.withFetchWord 32 0x00000055)) (fun t => t.port == some (.read 0#32 0x0C#12)) = true ∧
    nextIs (step (State.reset.withFetchWord 32 0x00000010)) (fun t => t.val0 == some 0#32) = true := by decide

/-! ### States and operands that meet the hypotheses of the obligations -/

/-- A read-back in progress: slot 2 of function 0x100, a 64-bit BAR. -/
abbrev midProbe (ps : List Pins) : State := probeAt 2 .barBackRd 0xC000000C#32 0#32 Pins.quiet ps

theorem midProbe_inv (ps : List Pins) : (midProbe ps).Inv := by
  refine ⟨by simp [State.BusyAgrees, midProbe, probeAt], ?_, rfl⟩
  exact ⟨2, 0x100#32, 0xC000000C#32, rfl, by unfold probed; decide,
    ⟨⟨_, rfl, by decide⟩, by decide, rfl, rfl, .inl ⟨rfl, rfl⟩⟩⟩

/-- The same probe before its read-back is presented. -/
abbrev midPending (ps : List Pins) : State := probePending 2 .barBackRd 0xC000000C#32 0#32 Pins.quiet ps

theorem midPending_inv (ps : List Pins) : (midPending ps).Inv := by
  refine ⟨by simp [State.BusyAgrees, midPending, probePending, probeAt], ?_, rfl⟩
  exact ⟨2, 0x100#32, 0xC000000C#32, rfl, by unfold probed; decide,
    ⟨⟨_, rfl, by decide⟩, by decide, rfl, rfl, .inr ⟨rfl, rfl⟩⟩⟩

theorem midProbe_traced (ps : List Pins) : (midProbe ps).ProbeTraced := by
  intro w slot key hw hd hk
  have hw : some 0x260#32 = some w := hw
  have hk : some 0x100#32 = some key := hk
  injection hw with hw
  injection hk with hk
  subst hw hk
  have h2 : decode 0x260#32 = .ok (.barProbe 2) := by decide
  rw [h2] at hd
  injection hd with hd
  injection hd with hd
  subst hd
  exact ⟨[], rfl⟩

theorem midProbe_steps : ∃ t, step (midProbe [donePins 2 0xFFF0000C#32]) = .next t := ⟨_, rfl⟩

theorem midProbe_offsetsLegal (ps : List Pins) : (midProbe ps).OffsetsLegal := by
  intro x hx
  have hx : x ∈ [Transaction.read 0x100#32 0x18#12, .write 0x100#32 0x18#12 allOnes, .read 0x100#32 0x18#12] := hx
  simp only [List.mem_cons, List.not_mem_nil, or_false] at hx
  rcases hx with rfl | rfl | rfl <;> simp [Transaction.legal]

theorem ready_inv (ps : List Pins) : (ready ps).Inv :=
  ⟨by simp [State.BusyAgrees, ready, State.reset], ⟨rfl, rfl⟩, rfl⟩

theorem cmdPins_presents (w a b : Word) : Presents (cmdPins w a b) w a b := ⟨rfl, rfl, rfl, rfl, rfl, rfl⟩

theorem donePins_answers (n : Nat) (v : Word) : Answers (donePins n v) n v := ⟨rfl, rfl, rfl⟩

theorem quiet_passes : Passes Pins.quiet := ⟨rfl, rfl⟩

theorem ready_ready (ps : List Pins) : (ready ps).Ready := ⟨rfl, rfl⟩

theorem witness_ListedWordsDecodeToTheirCommand :
    (0x03050020#32 &&& 0xE0E0FFFF#32 = 0x20#32) ∧ (0x1F1F0021#32 &&& 0xE0E0FFFF#32 = 0x21#32) ∧
    (0x760#32 &&& 0xFFFFF8FF#32 = 0x60#32) := by decide

theorem witness_UnlistedWordsCompleteAsIllegal :
    (ready [cmdPins 0x860#32 1#32 2#32]).Ready ∧
    (ready [cmdPins 0x860#32 1#32 2#32]).inputs = cmdPins 0x860#32 1#32 2#32 :: [] ∧
    Presents (cmdPins 0x860#32 1#32 2#32) 0x860#32 1#32 2#32 ∧ ¬ Listed 0x860#32 :=
  ⟨ready_ready _, rfl, cmdPins_presents .., by unfold Listed; decide⟩

theorem witness_DecodeOfEncodeIsTheCommand :
    (Instr.bits32 31 0).wellFormed = true ∧ (Instr.bits16 0 31).wellFormed = true ∧
    (Instr.barProbe 7).wellFormed = true := by decide

theorem witness_DecodedWordIsItsEncoding : decode 0x1F1F0021#32 = .ok (.bits16 31 31) := by decide

theorem witness_AtMostOneRowMatches : ∃ a, opcodeRows[43]? = some a ∧ 0x560#32 &&& a.mask = a.pattern :=
  ⟨_, rfl, by decide⟩

theorem witness_ResetInputRestoresTheResetValues :
    let p := { Pins.quiet with rst := true }
    (midProbe [p]).inputs = p :: [] ∧ p.rst = true ∧ p.read = none := by decide

theorem witness_StepRunsThePresentedCommand :
    let p := cmdPins 0x1A#32 0x0001021C#32 0#32
    (ready [p]).Ready ∧ (ready [p]).inputs = p :: [] ∧ p.rst = false ∧ p.read = none ∧ p.cmdValid = true ∧
    decode p.cmd = .ok .advBus ∧ Pins.quiet.cmdValid = false ∧ (ready [Pins.quiet]).inputs = Pins.quiet :: [] :=
  ⟨ready_ready _, rfl, rfl, rfl, rfl, by decide, rfl, rfl⟩

theorem witness_StepRunsTheLatchedCommand :
    let p := donePins 2 1#32
    (midProbe [p]).BusyAgrees ∧ (midProbe [p]).busy = true ∧ (midProbe [p]).inputs = p :: [] ∧ p.rst = false ∧
    p.read = none ∧ (midProbe [p]).cmdL = some 0x260#32 ∧ decode 0x260#32 = .ok (.barProbe 2) :=
  ⟨(midProbe_inv _).busy, rfl, rfl, rfl, rfl, rfl, by decide⟩

theorem witness_BusyIgnoresTheCommandPort :
    let p := donePins 2 1#32
    let q := { p with cmdValid := true, cmd := 0x10#32, opa := 5#32 }
    (midProbe [p]).Inv ∧ (midProbe [p]).busy = true ∧ (midProbe [p]).inputs = p :: [] ∧ q.rst = p.rst ∧
    q.done = p.done ∧ q.read = p.read := ⟨midProbe_inv _, rfl, rfl, rfl, rfl, rfl⟩

/-- No completion, and the completion of a transaction that is not the outstanding one. -/
theorem witness_WaitingKeepsEverything :
    ∀ p ∈ [Pins.quiet, donePins 1 7#32, donePins 3 7#32], (midProbe [p]).Inv ∧ (midProbe [p]).port.isSome = true ∧
      (midProbe [p]).inputs = p :: [] ∧ p.rst = false ∧ p.read = none ∧
      ∀ c, p.done = some c → c.number + 1 ≠ (midProbe [p]).issued := by
  intro p hp
  refine ⟨midProbe_inv _, rfl, rfl, ?_⟩
  simp only [List.mem_cons, List.not_mem_nil, or_false] at hp
  rcases hp with rfl | rfl | rfl
  · exact ⟨rfl, rfl, fun c hc => by cases hc⟩
  · refine ⟨rfl, rfl, fun c hc => ?_⟩
    cases hc
    decide
  · refine ⟨rfl, rfl, fun c hc => ?_⟩
    cases hc
    decide

/-- Without a completion, and with one that belongs to no outstanding transaction. -/
theorem witness_PendingTransactionIsPresentedNext :
    ∀ p ∈ [Pins.quiet, donePins 2 7#32], (midPending [p]).Inv ∧
      (midPending [p]).pending = some (.read 0x100#32 0x18#12) ∧ (midPending [p]).inputs = p :: [] ∧ p.rst = false ∧
      p.read = none := by
  intro p hp
  refine ⟨midPending_inv _, rfl, rfl, ?_⟩
  simp only [List.mem_cons, List.not_mem_nil, or_false] at hp
  rcases hp with rfl | rfl <;> exact ⟨rfl, rfl⟩

theorem witness_StallIsStuck : (midProbe []).port.isSome = true ∧ (midProbe []).inputs = [] := by decide

/-- Each clause: after reset every one of these registers is ⊥. -/
theorem witness_HostReadOfBottomFaults :
    (∀ r, (ready [readPins r]).inputs = readPins r :: [] ∧ (readPins r).read = some r) ∧
    ∀ ps, (ready ps).val0 = none ∧ (ready ps).val1 = none ∧ (ready ps).val2 = none ∧ (ready ps).val3 = none ∧
      (ready ps).barKind = none ∧ (ready ps).barAddr = none ∧ (ready ps).barSize = none ∧ (ready ps).barPf = none :=
  ⟨fun _ => ⟨rfl, rfl⟩, fun _ => ⟨rfl, rfl, rfl, rfl, rfl, rfl, rfl, rfl⟩⟩

/-- `s` with a value in every result register, all at their largest. -/
def filled (s : State) : State :=
  { s with
    outcome := 3#2, err := 15#4, val0 := some allOnes, val1 := some allOnes, val2 := some allOnes, val3 := some allOnes
    barKind := some 3#2, barAddr := some 0xFFFFFFFFFFFFFFFF#64, barSize := some 0xFFFFFFFFFFFFFFFF#64, barPf := some 1#1 }

theorem filled_inv {s : State} (h : s.Inv) : (filled s).Inv :=
  ⟨h.busy, sequenced_congr h.sequenced rfl ⟨rfl, rfl, rfl, rfl, rfl⟩ rfl rfl, h.counted⟩

/-- Each alternative of the statement with the value of the register, in a ready state, and while BUSY with 1 in BUSY. -/
theorem witness_HostReadReturnsTheRegister (r : HostReg) :
    (∀ s ∈ [filled (ready [readPins r]), filled (midProbe [readPins r]), filled (midPending [readPins r])],
      s.Inv ∧ s.inputs = readPins r :: [] ∧
      (3#64).toNat = s.outcome.toNat ∧ (15#64).toNat = s.err.toNat ∧
      s.val0 = some allOnes ∧ s.val1 = some allOnes ∧ s.val2 = some allOnes ∧ s.val3 = some allOnes ∧
      (0xFFFFFFFF#64).toNat = allOnes.toNat ∧ s.barKind = some 3#2 ∧ (3#64).toNat = (3#2).toNat ∧
      s.barAddr = some 0xFFFFFFFFFFFFFFFF#64 ∧ s.barSize = some 0xFFFFFFFFFFFFFFFF#64 ∧ s.barPf = some 1#1 ∧
      (1#64).toNat = (1#1).toNat) ∧
    (readPins r).read = some r ∧ (readPins r).rst = false ∧ (readPins r).cmdValid = false ∧
    (filled (ready [readPins r])).Ready ∧ (filled (midProbe [readPins r])).busy = true ∧
    (0#64 = if (filled (ready [])).busy then 1#64 else 0#64) ∧
    (1#64 = if (filled (midProbe [])).busy then 1#64 else 0#64) := by
  refine ⟨fun s hs => ?_, rfl, rfl, rfl, ⟨rfl, rfl⟩, rfl, rfl, rfl⟩
  simp only [List.mem_cons, List.not_mem_nil, or_false] at hs
  rcases hs with rfl | rfl | rfl
  · exact ⟨filled_inv (ready_inv _), rfl, rfl, rfl, rfl, rfl, rfl, rfl, rfl, rfl, rfl, rfl, rfl, rfl, rfl⟩
  · exact ⟨filled_inv (midProbe_inv _), rfl, rfl, rfl, rfl, rfl, rfl, rfl, rfl, rfl, rfl, rfl, rfl, rfl, rfl⟩
  · exact ⟨filled_inv (midPending_inv _), rfl, rfl, rfl, rfl, rfl, rfl, rfl, rfl, rfl, rfl, rfl, rfl, rfl, rfl⟩

theorem witness_HostReadsDoNotInfluenceTheStep :
    (donePins 2 1#32).read = none ∧ (midProbe []).readRegister .outcome = some 0#64 ∧
    (filled (ready [])).readRegister .barAddr = some 0xFFFFFFFFFFFFFFFF#64 := by decide

/-- The range hypothesis of ADDR_ENCODE on operands. -/
abbrev inRange (a b : Word) : Prop :=
  a.toNat < 2 ^ 16 ∧ b.toNat < 2 ^ 24 ∧ b.toNat / 2 ^ 8 % 256 ≤ 31 ∧ b.toNat / 2 ^ 16 % 256 ≤ 7

/-- Both clauses at the boundary of every field. -/
theorem witness_AddrEncodePacksOrReportsFieldRange :
    inRange 0xFFFF#32 0x00071FFF#32 ∧ inRange 0#32 0#32 ∧ ¬ inRange 0x10000#32 0#32 ∧ ¬ inRange 0#32 0x01000000#32 ∧
    ¬ inRange 0#32 0x2000#32 ∧ ¬ inRange 0#32 0x80000#32 := by decide

theorem witness_KeysRoundTrip :
    ((sampled (cmdPins 0#32 0xFFFF#32 0x00071FFF#32)).pins.opa = (0xFFFF#16).setWidth 32 ∧
      (sampled (cmdPins 0#32 0xFFFF#32 0x00071FFF#32)).pins.opb =
        (0xFF#8).setWidth 32 ||| (31#5).setWidth 32 <<< 8 ||| (7#3).setWidth 32 <<< 16) ∧
    ((sampled (cmdPins 0#32 1#32 0x00040302#32)).pins.opa = 0x0001021C#32 >>> 16 ∧
      (sampled (cmdPins 0#32 1#32 0x00040302#32)).pins.opb =
        ((0x0001021C#32 >>> 8) &&& 0xFF#32) ||| ((0x0001021C#32 >>> 3) &&& 0x1F#32) <<< 8 |||
          (0x0001021C#32 &&& 0x7#32) <<< 16) := by decide

/-- Each clause on both sides of its boundary. -/
theorem witness_AdvanceCommandsCarryOrReportExhaustion :
    (sampled (cmdPins 0#32 0xFFFFFFFE#32 0#32)).pins.opa ≠ 0xFFFFFFFF#32 ∧
    (sampled (cmdPins 0#32 0xFFFFFFFF#32 0#32)).pins.opa = 0xFFFFFFFF#32 ∧
    (sampled (cmdPins 0#32 0xFFFFFFF7#32 0#32)).pins.opa.toNat < 0xFFFFFFF8 ∧
    0xFFFFFFF8 ≤ (sampled (cmdPins 0#32 0xFFFFFFF8#32 0#32)).pins.opa.toNat ∧
    (sampled (cmdPins 0#32 0xFFFFFEFF#32 0#32)).pins.opa.toNat < 0xFFFFFF00 ∧
    0xFFFFFF00 ≤ (sampled (cmdPins 0#32 0xFFFFFF00#32 0#32)).pins.opa.toNat ∧
    (sampled (cmdPins 0#32 0xFFFEFFFF#32 0#32)).pins.opa.toNat < 0xFFFF0000 ∧
    0xFFFF0000 ≤ (sampled (cmdPins 0#32 0xFFFF0000#32 0#32)).pins.opa.toNat := by decide

theorem witness_AdvanceGivesTheStartOfTheNextUnit :
    (Instr.advFunction, 1) ∈ advanceWeights ∧ (Instr.advSegment, 0x10000) ∈ advanceWeights := by decide

/-- Both clauses of BITS32, and the four of BITS16, at their boundaries. -/
theorem witness_BitRanges :
    (0x1F1F0020#32 &&& 0xE0E0FFFF#32 = 0x20#32) ∧ (0x0F0F0021#32 &&& 0xE0E0FFFF#32 = 0x21#32) ∧
    (31 < 32 ∧ 31 < 32 ∧ 31 ≤ 31) ∧ (3 < 32 ∧ 4 < 32 ∧ 3 < 4) ∧
    (16 < 32 ∧ 0 < 32 ∧ (15 < 16 ∨ 16 < 0)) ∧ (3 < 32 ∧ 4 < 32 ∧ (15 < 3 ∨ 3 < 4)) ∧
    (15 < 32 ∧ 15 < 32 ∧ 15 ≤ 15 ∧ 15 ≤ 15) := by decide

/-- Every kind of header type. -/
theorem witness_HeaderTypeAndByteExtractorsGiveTheirField :
    (sampled (cmdPins 0x3A#32 0x00800000#32 0#32)).pins.opa.extractLsb' 16 7 = 0#7 ∧
    (sampled (cmdPins 0x3A#32 0x00010000#32 0#32)).pins.opa.extractLsb' 16 7 = 1#7 ∧
    (sampled (cmdPins 0x3A#32 0x00020000#32 0#32)).pins.opa.extractLsb' 16 7 = 2#7 ∧
    (sampled (cmdPins 0x3A#32 0x007F0000#32 0#32)).pins.opa.extractLsb' 16 7 = 0x7F#7 := by decide

theorem witness_StatusDecoders :
    (Instr.sIntStatus, 3) ∈ statusFlags ∧ (Instr.sDetPerr, 15) ∈ statusFlags ∧
    Instr.sFastB2b ∈ statusFlags.map Prod.fst ∧
    0xFFFF0047#32 &&& 0xFFB8#32 = (sampled (cmdPins 0x43#32 0#32 0#32)).pins.opa &&& 0xFFB8#32 := by decide

theorem witness_ImmediateCommandsCompleteAndTouchNothingElse :
    accesses .addrEncode = false ∧ accesses (.bits16 3 5) = false ∧ accesses .sDetPerr = false := by decide

theorem witness_HeaderCommandsAcceptWithOneRead :
    (Instr.cfgIdentity, 0x00#12) ∈ headerReads ∧ (Instr.cfgCapPointer, 0x04#12) ∈ headerReads ∧
    (sampled (cmdPins 0x50#32 0x18#32 0#32)).fsm = .idle := by decide

/-- A header read that completes with an endpoint's type, and with another. -/
theorem witness_HeaderCommandsCompleteOnTheirRead :
    (headerAt 0x55#32 .hdrRd0 0x0C#12 (donePins 0 0x00800000#32) []).fsm = .hdrRd0 ∧
    (headerAt 0x55#32 .hdrRd0 0x0C#12 (donePins 0 0x00800000#32) []).completion = some 0x00800000#32 ∧
    (0x00800000#32).extractLsb' 16 7 = 0#7 ∧
    (headerAt 0x55#32 .hdrRd0 0x0C#12 (donePins 0 0x00010000#32) []).completion = some 0x00010000#32 ∧
    (0x00010000#32).extractLsb' 16 7 ≠ 0#7 := by decide

/-- Its three clauses. -/
theorem witness_CapPointerFollowsTheStatusFlag :
    (headerAt 0x56#32 .hdrRd0 0x04#12 (donePins 0 0xFFEFFFFF#32) []).completion = some 0xFFEFFFFF#32 ∧
    (headerAt 0x56#32 .hdrRd0 0x04#12 (donePins 0 0xFFEFFFFF#32) []).keyL = some 0x18#32 ∧
    (headerAt 0x56#32 .hdrRd0 0x04#12 (donePins 0 0xFFEFFFFF#32) []).fsm = .hdrRd0 ∧
    (0xFFEFFFFF#32).getLsbD 20 = false ∧
    (headerAt 0x56#32 .hdrRd0 0x04#12 (donePins 0 0x00100000#32) []).completion = some 0x00100000#32 ∧
    (0x00100000#32).getLsbD 20 = true ∧
    (headerAt 0x56#32 .hdrRd1 0x34#12 (donePins 0 0x40#32) []).completion = some 0x40#32 ∧
    (headerAt 0x56#32 .hdrRd1 0x34#12 (donePins 0 0x40#32) []).fsm = .hdrRd1 := by decide

theorem witness_HeaderCommandsRunWithOneRead :
    let ps := [cmdPins 0x50#32 0x18#32 0#32, donePins 0 0xABCD1234#32]
    (ready ps).Ready ∧ (ready ps).inputs = cmdPins 0x50#32 0x18#32 0#32 :: donePins 0 0xABCD1234#32 :: [] ∧
    Presents (cmdPins 0x50#32 0x18#32 0#32) 0x50#32 0x18#32 0#32 ∧
    Answers (donePins 0 0xABCD1234#32) (ready ps).issued 0xABCD1234#32 :=
  ⟨ready_ready _, rfl, cmdPins_presents .., donePins_answers ..⟩

/-- With the capability flag clear and set. -/
theorem witness_CapPointerRunsGatedByTheStatusFlag :
    ∀ v ∈ [0xFFEFFFFF#32, 0x00100000#32],
      let ps := [cmdPins 0x56#32 0x18#32 0#32, donePins 0 v, Pins.quiet, donePins 1 0x40#32]
      (ready ps).Ready ∧
      (ready ps).inputs = cmdPins 0x56#32 0x18#32 0#32 :: donePins 0 v :: Pins.quiet :: donePins 1 0x40#32 :: [] ∧
      Passes Pins.quiet ∧
      Presents (cmdPins 0x56#32 0x18#32 0#32) 0x56#32 0x18#32 0#32 ∧ Answers (donePins 0 v) (ready ps).issued v ∧
      Answers (donePins 1 0x40#32) ((ready ps).issued + 1) 0x40#32 ∧
      ((0xFFEFFFFF#32).getLsbD 20 = false ∧ (0x00100000#32).getLsbD 20 = true) := fun v _ =>
  ⟨ready_ready _, rfl, quiet_passes, cmdPins_presents .., donePins_answers .., donePins_answers .., by decide⟩

theorem witness_BarProbeAcceptsOrReportsInvalidSlot :
    (sampled (cmdPins 0x560#32 0x100#32 0#32)).fsm = .idle ∧ 5 ≤ 5 ∧ 5 < 6 := by decide

/-- The hypotheses that the statements about a probe's steps share. -/
abbrev goesOn (s : State) (f : Fsm) (v key : Word) (off : Off) : Prop :=
  s.fsm = f ∧ s.completion = some v ∧ s.keyL = some key ∧ s.offL = some off ∧ off.toNat % 4 = 0 ∧ off.toNat < 252

/-- Each clause of BarRawReadDecides, for slot 5, whose offset is the largest. -/
theorem witness_BarRawReadDecides :
    goesOn (probeAt 5 .barRawRd 0#32 0#32 (donePins 0 0xFFFFFFFF#32) []) .barRawRd 0xFFFFFFFF#32 0x100#32 0x24#12 ∧
    (0xFFFFFFFF#32).getLsbD 0 = true ∧
    goesOn (probeAt 5 .barRawRd 0#32 0#32 (donePins 0 2#32) []) .barRawRd 2#32 0x100#32 0x24#12 ∧
    ((2#32).getLsbD 0 = false ∧ (2#32).getLsbD 1 = true) ∧
    goesOn (probeAt 5 .barRawRd 0#32 0#32 (donePins 0 4#32) []) .barRawRd 4#32 0x100#32 0x24#12 ∧
    ((4#32).getLsbD 0 = false ∧ (4#32).getLsbD 1 = false) := by decide

theorem witness_BarReadBackThenRestore :
    goesOn (probeAt 5 .barOnesWr 8#32 0#32 (donePins 1 0#32) []) .barOnesWr 0#32 0x100#32 0x24#12 ∧
    goesOn (probeAt 5 .barBackRd 8#32 0#32 (donePins 2 9#32) []) .barBackRd 9#32 0x100#32 0x24#12 ∧
    (probeAt 5 .barBackRd 8#32 0#32 (donePins 2 9#32) []).rawL = some 8#32 := by decide

/-- Each clause of BarRestoreDecides, where the clauses meet. -/
theorem witness_BarRestoreDecides :
    goesOn (probeAt 5 .barRestoreWr 4#32 16#32 (donePins 3 0#32) []) .barRestoreWr 0#32 0x100#32 0x24#12 ∧
    (probeAt 5 .barRestoreWr 4#32 16#32 (donePins 3 0#32) []).rawL = some 4#32 ∧
    (probeAt 5 .barRestoreWr 4#32 16#32 (donePins 3 0#32) []).backL = some 16#32 ∧
    16 ≤ (16#32 : Word).toNat ∧ (4#32 : Word).extractLsb' 1 2 ≠ 0#2 ∧
    (probeAt 5 .barRestoreWr 8#32 15#32 (donePins 3 0#32) []).rawL = some 8#32 ∧
    (8#32 : Word).extractLsb' 1 2 = 0#2 ∧
    (probeAt 5 .barRestoreWr 8#32 15#32 (donePins 3 0#32) []).backL = some 15#32 ∧
    ((15#32 : Word) ≠ 0#32 ∧ (15#32 : Word).toNat < 16) ∧
    (probeAt 5 .barRestoreWr 8#32 0#32 (donePins 3 0#32) []).backL = some 0#32 := by decide

theorem witness_BarUpperHalfCompletes :
    (probeAt 5 .barUpperRd 4#32 16#32 (donePins 4 9#32) []).fsm = .barUpperRd ∧
    (probeAt 5 .barUpperRd 4#32 16#32 (donePins 4 9#32) []).completion = some 9#32 ∧
    (probeAt 5 .barUpperRd 4#32 16#32 (donePins 4 9#32) []).rawL = some 4#32 ∧
    (probeAt 5 .barUpperRd 4#32 16#32 (donePins 4 9#32) []).backL = some 16#32 ∧ 16 ≤ (16#32 : Word).toNat := by decide

/-- The inputs of a whole probe of slot 5, for the three statements about whole probes. -/
theorem witness_WholeProbes (raw back : Word) :
    let ps := [cmdPins 0x560#32 0x100#32 0#32, donePins 0 raw, Pins.quiet, donePins 1 0#32, Pins.quiet, donePins 2 back,
      Pins.quiet, donePins 3 0#32, Pins.quiet, donePins 4 9#32]
    (ready ps).Ready ∧ 5 ≤ 5 ∧ Passes Pins.quiet ∧ (ready ps).inputs = ps ∧
    Presents (cmdPins 0x560#32 0x100#32 0#32) (0x60#32 ||| BitVec.ofNat 32 5 <<< 8) 0x100#32 0#32 ∧
    Answers (donePins 0 raw) (ready ps).issued raw ∧ Answers (donePins 1 0#32) ((ready ps).issued + 1) 0#32 ∧
    Answers (donePins 2 back) ((ready ps).issued + 2) back ∧ Answers (donePins 3 0#32) ((ready ps).issued + 3) 0#32 ∧
    Answers (donePins 4 9#32) ((ready ps).issued + 4) 9#32 :=
  ⟨ready_ready _, by decide, quiet_passes, rfl, cmdPins_presents .., donePins_answers .., donePins_answers .., donePins_answers ..,
    donePins_answers .., donePins_answers ..⟩

/-- The conditions of the whole probes on the values read, each clause. -/
theorem witness_WholeProbeValues :
    ((1#32).getLsbD 0 = true ∨ (1#32).getLsbD 1 = true) ∧ ((2#32).getLsbD 0 = true ∨ (2#32).getLsbD 1 = true) ∧
    ((8#32).getLsbD 0 = false ∧ (8#32).getLsbD 1 = false ∧ (8#32).getLsbD 2 = false) ∧
    ((4#32).getLsbD 0 = false ∧ (4#32).getLsbD 1 = false ∧ (4#32).getLsbD 2 = true) ∧
    ((15#32 : Word) ≠ 0#32 ∧ (15#32 : Word).toNat < 16 ∧ 16 ≤ (16#32 : Word).toNat) ∧
    ((4#32).getLsbD 0 = false ∧ (4#32 : Word).extractLsb' 1 2 = 2#2 ∧ 16 ≤ (16#32 : Word).toNat) := by decide

theorem witness_ReadBackTypeBitsAreIgnored :
    0xFFFF0000#32 &&& 0xFFFFFFF0#32 = 0xFFFF000F#32 &&& 0xFFFFFFF0#32 ∧ 0xFFFF0000#32 ≠ 0#32 ∧ 0xFFFF000F#32 ≠ 0#32 ∧
    (probeAt 0 .barRestoreWr 0#32 0#32 (donePins 3 0#32) []).fsm = .barRestoreWr ∧
    (probeAt 0 .barUpperRd 4#32 0#32 (donePins 4 0#32) []).fsm = .barUpperRd := by decide

theorem witness_AccessingCommandsKeepTheRest :
    accesses (.barProbe 5) = true ∧ ∃ t, exec (.barProbe 5) (sampled (cmdPins 0x560#32 0x100#32 0#32)) = .next t :=
  ⟨rfl, _, rfl⟩

/-- The hypotheses of every statement that a step keeps an invariant. -/
theorem witness_StepKeepsInvariants :
    let s := midProbe [donePins 2 0xFFF0000C#32]
    s.Inv ∧ s.BusyAgrees ∧ s.ProbeTraced ∧ s.ResultsAgree ∧ s.SizeLegal ∧ s.OffsetsLegal ∧ ∃ t, step s = .next t :=
  ⟨midProbe_inv _, (midProbe_inv _).busy, midProbe_traced _,
    ⟨by decide, by decide, fun _ => ⟨rfl, rfl, rfl, rfl, rfl⟩, by decide, rfl, by decide, by decide⟩,
    fun _ h => (by cases h), midProbe_offsetsLegal _, midProbe_steps⟩

/-- Both alternatives: a step that leaves PCFG busy, and one without a command. -/
theorem witness_ResultsChangeOnlyAtCompletion :
    (∃ t, step (midProbe [donePins 2 0xFFF0000C#32]) = .next t ∧ t.pins.rst = false ∧ t.busy = true) ∧
    ∃ t, step (ready [Pins.quiet]) = .next t ∧ t.pins.rst = false ∧ (ready [Pins.quiet]).busy = false ∧
      t.pins.cmdValid = false :=
  ⟨⟨_, rfl, rfl, rfl⟩, _, rfl, rfl, rfl, rfl⟩

/-- Its premises: an invariant state, and one for each of the two faults that are left. -/
theorem witness_NoConditionIsFatal :
    (midProbe [Pins.quiet]).Inv ∧ (midProbe [Pins.quiet]).inputs = Pins.quiet :: [] ∧ Pins.quiet.read = none ∧
    (midProbe []).Inv ∧ step (midProbe []) = .fault .stalled ∧ (ready [readPins .val0]).Inv ∧
    step (ready [readPins .val0]) = .fault (.readOfBottom .val0) :=
  ⟨midProbe_inv _, rfl, rfl, midProbe_inv _, rfl, ready_inv _, rfl⟩

/-- Both clauses: an aligned offset below 256, and an unaligned one. -/
theorem witness_PortContractDecidesIssue :
    (Transaction.offset (.read 0#32 0x28#12)).toNat % 4 = 0 ∧
    (Transaction.offset (.read 0#32 0x28#12)).toNat < Config.cfgSpaceBytes ∧
    ¬ ((Transaction.offset (.read 0#32 0x0E#12)).toNat % 4 = 0 ∧
      (Transaction.offset (.read 0#32 0x0E#12)).toNat < Config.cfgSpaceBytes) := by
  refine ⟨by decide, ?_, fun h => absurd h.1 (by decide)⟩
  unfold Config.cfgSpaceBytes
  split <;> decide

end Sys2Proof.Tests
end

section
/-! PROOFS. What a step writes into the result registers, said once: nothing, or one of the completions R14 allows (or the reset
values), and in each case the registers agree with each other (R14, R25 to R31). -/

namespace Sys2Proof.Machine

/-! ### What a completion may write -/

/-- The BAR registers a completion lists belong to the kind it lists (R28 to R31). -/
structure Results.BarAgrees (r : Results) : Prop where
  kind : r.barKind ≠ some 3#2
  addr : r.barAddr.isSome = r.barKind.isSome
  size : r.barSize.isSome = true ↔ r.barKind = some 0#2 ∨ r.barKind = some 1#2
  pf : r.barPf.isSome = true ↔ r.barKind = some 0#2 ∨ r.barKind = some 1#2

theorem Results.barAgrees_of_none {r : Results}
    (h : r.barKind = none ∧ r.barAddr = none ∧ r.barSize = none ∧ r.barPf = none) : r.BarAgrees := by
  obtain ⟨hk, ha, hz, hp⟩ := h
  constructor <;> simp [hk, ha, hz, hp]

theorem Results.barAgrees_io (a : Long) : Results.BarAgrees { barKind := some 2#2, barAddr := some a } := by
  constructor <;> simp

theorem Results.barAgrees_memory {k : BitVec 2} (hk : k = 0#2 ∨ k = 1#2) (a z : Long) (p : BitVec 1) :
    Results.BarAgrees { barKind := some k, barAddr := some a, barSize := some z, barPf := some p } := by
  rcases hk with rfl | rfl <;> constructor <;> simp

/-- The outcome code, error code and value registers that a step may leave together: the reset values (R43), or those of
`Finish(OK, 0, r)`, `Absent()` or `raise Error(c)` (R14). -/
inductive Reported : BitVec 2 → BitVec 4 → Results → Prop where
  | nothing : Reported 0#2 0#4 {}
  | ok (r : Results) (hr : r.BarAgrees) : Reported 1#2 0#4 r
  | absent : Reported 2#2 0#4 {}
  | error (c : ErrorCode) : Reported 3#2 (errorCode c) {}

theorem errorCode_ne_zero (c : ErrorCode) : errorCode c ≠ 0#4 := by cases c <;> decide

theorem errorCode_le_seven (c : ErrorCode) : (errorCode c).toNat ≤ 7 := by cases c <;> decide

namespace Reported

variable {o : BitVec 2} {e : BitVec 4} {r : Results}

theorem err_iff (h : Reported o e r) : e ≠ 0#4 ↔ o = 3#2 := by
  cases h with
  | nothing => decide
  | ok => decide
  | absent => decide
  | error c => simp [errorCode_ne_zero c]

theorem err_le (h : Reported o e r) : e.toNat ≤ 7 := by
  cases h with
  | nothing => decide
  | ok => decide
  | absent => decide
  | error c => exact errorCode_le_seven c

theorem empty_of_not_ok (h : Reported o e r) (ho : o ≠ 1#2) : r = {} := by
  cases h with
  | nothing => rfl
  | ok => exact absurd rfl ho
  | absent => rfl
  | error c => rfl

theorem barAgrees (h : Reported o e r) : r.BarAgrees := by
  cases h with
  | nothing => exact Results.barAgrees_of_none ⟨rfl, rfl, rfl, rfl⟩
  | ok _ hr => exact hr
  | absent => exact Results.barAgrees_of_none ⟨rfl, rfl, rfl, rfl⟩
  | error c => exact Results.barAgrees_of_none ⟨rfl, rfl, rfl, rfl⟩

end Reported

theorem Finished.resultsAgree {t : State} {o : BitVec 2} {e : BitVec 4} {r : Results} (h : Finished t o e r)
    (hw : Reported o e r) : t.ResultsAgree where
  err_iff := by rw [h.err, h.outcome]; exact hw.err_iff
  err_le := by rw [h.err]; exact hw.err_le
  noValue ho := by
    obtain rfl := hw.empty_of_not_ok (h.outcome ▸ ho)
    exact ⟨h.val0, h.val1, h.val2, h.val3, h.barKind⟩
  kind := by rw [h.barKind]; exact hw.barAgrees.kind
  addr := by rw [h.barAddr, h.barKind]; exact hw.barAgrees.addr
  size := by rw [h.barSize, h.barKind]; exact hw.barAgrees.size
  pf := by rw [h.barPf, h.barKind]; exact hw.barAgrees.pf

theorem ResultsKept.resultsAgree {s t : State} (h : ResultsKept s t) (hs : s.ResultsAgree) : t.ResultsAgree where
  err_iff := by rw [h.err, h.outcome]; exact hs.err_iff
  err_le := by rw [h.err]; exact hs.err_le
  noValue := by rw [h.outcome, h.val0, h.val1, h.val2, h.val3, h.barKind]; exact hs.noValue
  kind := by rw [h.barKind]; exact hs.kind
  addr := by rw [h.barAddr, h.barKind]; exact hs.addr
  size := by rw [h.barSize, h.barKind]; exact hs.size
  pf := by rw [h.barPf, h.barKind]; exact hs.pf

/-! ### What a step writes -/

/-- A step keeps the result registers or ends a command. -/
def KeepsOrReports (s t : State) : Prop := ResultsKept s t ∨ ∃ o e r, Finished t o e r ∧ Reported o e r

theorem finish_reports {s : State} (u : State) {o : CmdOutcome} {e : BitVec 4} {r : Results}
    (h : Reported (outcomeCode o) e r) : KeepsOrReports s (u.finish o e r) :=
  .inr ⟨_, _, _, finish_finished u o e r, h⟩

theorem accessStep_keepsOrReports {i : Instr} {s t : State} (h : AccessStep i s t) : KeepsOrReports s t := by
  cases h with
  | waits => exact .inl (by constructor <;> rfl)
  | presents => exact .inl (by constructor <;> rfl)
  | accepts => exact .inl (by constructor <;> rfl)
  | completes o r hf hi hcap hc ho hr hb =>
    cases o with
    | ok => exact finish_reports _ (.ok _ (Results.barAgrees_of_none hb))
    | absent =>
      obtain rfl := hr rfl
      exact finish_reports _ .absent
    | error => exact absurd rfl ho
  | noCapabilities => exact finish_reports _ (.ok _ (Results.barAgrees_of_none ⟨rfl, rfl, rfl, rfl⟩))
  | capabilities => exact .inl (by constructor <;> rfl)
  | pointer => exact finish_reports _ (.ok _ (Results.barAgrees_of_none ⟨rfl, rfl, rfl, rfl⟩))
  | badSlot => exact finish_reports _ (.error .invalidSlot)
  | rawRead => exact .inl (by constructor <;> rfl)
  | ioBar => exact finish_reports _ (.ok _ (Results.barAgrees_io _))
  | reservedType => exact finish_reports _ (.error .barReservedType)
  | onesWrite => exact .inl (by constructor <;> rfl)
  | readBack => exact .inl (by constructor <;> rfl)
  | restore => exact .inl (by constructor <;> rfl)
  | absentBar => exact finish_reports _ .absent
  | noSize => exact finish_reports _ (.error .barSizeUndetermined)
  | memory32 => exact finish_reports _ (.ok _ (Results.barAgrees_memory (.inl rfl) _ _ _))
  | upperRead => exact .inl (by constructor <;> rfl)
  | memory64 => exact finish_reports _ (.ok _ (Results.barAgrees_memory (.inr rfl) _ _ _))

theorem applyReset_finished (s : State) : Finished s.applyReset 0#2 0#4 {} :=
  ⟨rfl, rfl, rfl, rfl, rfl, rfl, rfl, rfl, rfl, rfl, rfl, rfl⟩

theorem stepCase_keepsOrReports {b t : State} (h : StepCase b t) : KeepsOrReports b t := by
  cases h with
  | reset => exact .inr ⟨_, _, _, applyReset_finished b, .nothing⟩
  | quiet => exact .inl (by constructor <;> rfl)
  | illegal => exact finish_reports b (.error .illegalCommand)
  | value hr i ha hi r hn => exact finish_reports b (.ok r (Results.barAgrees_of_none hn))
  | error hr i ha hi c => exact finish_reports b (.error c)
  | access hr i ha hi h => exact accessStep_keepsOrReports h

/-- Sampling the inputs and serving the host's read leave the result registers. -/
theorem begun_resultsKept (s : State) (d : Option Long) : ResultsKept s (s.begun d) :=
  ⟨rfl, rfl, rfl, rfl, rfl, rfl, rfl, rfl, rfl, rfl⟩

/-- Settles O50: a step keeps the result registers, which then agree as before, or writes values that agree by themselves. -/
theorem stepKeepsResultsAgreeing : Obligations.StepKeepsResultsAgreeing := by
  intro s t hs h
  obtain ⟨d, hc⟩ := step_cases h
  rcases stepCase_keepsOrReports hc with hk | ⟨o, e, r, hf, hw⟩
  · exact hk.resultsAgree ((begun_resultsKept s d).resultsAgree hs)
  · exact hf.resultsAgree hw

end Sys2Proof.Machine
end

section
/-! PROOFS. The host's read of a register that holds ⊥ (R15). -/

namespace Sys2Proof.Machine

/-- The host reads what the register held before the step (log entry 5). -/
theorem readRegister_sample (s : State) (r : HostReg) : s.sample.readRegister r = s.readRegister r := by
  cases r <;> rfl

theorem serveRead_bottom {s : State} {r : HostReg} (hr : s.pins.read = some r) (hn : s.readRegister r = none) :
    s.serveRead = .error (.readOfBottom r) := by
  simp [State.serveRead, hr, hn]

theorem step_readOfBottom {s : State} {p : Pins} {rest : List Pins} {r : HostReg} (hi : s.inputs = p :: rest)
    (hr : p.read = some r) (hn : s.readRegister r = none) : step s = .fault (.readOfBottom r) := by
  have h : s.sample.serveRead = .error (.readOfBottom r) :=
    serveRead_bottom (by simp [hi, hr]) ((readRegister_sample s r).trans hn)
  simp [step, nextWork, hi, h, perform]

/-- Settles O15: each of the eight clauses is the read of one register that holds ⊥. -/
theorem hostReadOfBottomFaults : Obligations.HostReadOfBottomFaults := by
  intro s p rest hi
  refine ⟨?_, ?_, ?_, ?_, ?_, ?_, ?_, ?_⟩ <;> intro hr hn <;>
    exact step_readOfBottom hi hr (by simp [State.readRegister, hn])

end Sys2Proof.Machine
end

section
/-! PROOFS. The contract of the configuration port decides what is issued (R6, R47). -/

namespace Sys2Proof.Machine

theorem cfgSpaceBytes_eq : Config.cfgSpaceBytes = 256 ∨ Config.cfgSpaceBytes = 4096 := by
  unfold Config.cfgSpaceBytes
  split
  · exact .inr rfl
  · exact .inl rfl

theorem issue_ok {s : State} {x : Transaction} {f : Fsm} (h : offsetOk x.offset = true) :
    s.issue x f = .next ((s.goto f).present x) :=
  inContract_ok h

theorem issueNext_ok {s : State} {x : Transaction} {f : Fsm} (h : offsetOk x.offset = true) :
    s.issueNext x f = .next (s.prepare x f) :=
  inContract_ok h

/-- Settles O57: inside the contract `issue` presents the transaction and `issueNext` prepares it; outside both refuse it. -/
theorem portContractDecidesIssue : Obligations.PortContractDecidesIssue := by
  refine ⟨cfgSpaceBytes_eq, fun s x f => ⟨fun h => ?inside, fun h => ?outside⟩⟩
  case inside =>
    have hok : offsetOk x.offset = true := (offsetOk_iff _).mpr h
    constructor
    · refine ⟨_, issue_ok hok, rfl, ⟨rfl, rfl, rfl, rfl⟩, ?_, ?_, ?_⟩ <;> constructor <;> rfl
    · refine ⟨_, issueNext_ok hok, rfl, rfl, rfl, rfl, rfl, ?_, ?_, ?_⟩ <;> constructor <;> rfl
  case outside =>
    have hbad : offsetOk x.offset = false := Bool.eq_false_iff.mpr (mt (offsetOk_iff _).mp h)
    exact ⟨inContract_refused hbad, inContract_refused hbad⟩

end Sys2Proof.Machine
end

section
/-! PROOFS. What every step leaves alone and how the trace grows, said once per transition; the frames of the commands and the rules of
the result registers and of BUSY follow (R22 to R24, R32, R38, R50). -/

namespace Sys2Proof.Machine

/-! ### Inputs -/

theorem accessStep_inputsKept {i : Instr} {s t : State} (h : AccessStep i s t) : InputsKept s t := by
  cases h <;> exact ⟨rfl, rfl, rfl⟩

theorem stepCase_inputsKept {b t : State} (h : StepCase b t) : InputsKept b t := by
  cases h with
  | access _ _ _ _ h => exact accessStep_inputsKept h
  | _ => exact ⟨rfl, rfl, rfl⟩

/-! ### The trace -/

/-- What a step adds to the trace and to the count of transactions: nothing, one issue, or one completion (R46, R50; log entry 3). -/
inductive TraceGrows (s t : State) : Prop where
  | same (hh : t.history = s.history) (hn : t.issued = s.issued)
  | issue (x : Transaction) (hh : t.history = s.history ++ [.issued x]) (hn : t.issued = s.issued + 1)
  | done (e : Event) (he : ∀ x, e ≠ .issued x) (hh : t.history = s.history ++ [e]) (hn : t.issued = s.issued)

theorem accessStep_traceGrows {i : Instr} {s t : State} (h : AccessStep i s t) : TraceGrows s t := by
  cases h with
  | waits => exact .same rfl rfl
  | presents | accepts | rawRead => exact .issue _ rfl rfl
  | badSlot => exact .same rfl rfl
  | readBack | absentBar | noSize | memory32 | upperRead => exact .done .writeDone nofun rfl rfl
  | _ => exact .done (.readDone _) nofun rfl rfl

theorem stepCase_traceGrows {b t : State} (h : StepCase b t) : TraceGrows b t := by
  cases h with
  | access _ _ _ _ h => exact accessStep_traceGrows h
  | _ => exact .same rfl rfl

theorem TraceGrows.history_prefix {s t : State} (h : TraceGrows s t) : s.history <+: t.history := by
  cases h with
  | same hh => rw [hh]
  | issue x hh => exact hh ▸ List.prefix_append ..
  | done e he hh => exact hh ▸ List.prefix_append ..

/-- The count of transactions is the number of issues in the trace. -/
theorem TraceGrows.counted {s t : State} (h : TraceGrows s t) (hs : s.issued = (issuedIn s.history).length) :
    t.issued = (issuedIn t.history).length := by
  cases h with
  | same hh hn => rw [hn, hh, hs]
  | issue x hh hn => rw [hn, hh, hs]; simp
  | done e he hh hn =>
    have : issuedIn [e] = [] := by
      cases e with
      | issued x => exact absurd rfl (he x)
      | readDone v => rfl
      | writeDone => rfl
    rw [hn, hh, hs, issuedIn_append, this, List.append_nil]

/-! ### The result registers -/

/-- A step that leaves PCFG BUSY ends no command. -/
theorem KeepsOrReports.kept_of_busy {s t : State} (h : KeepsOrReports s t) (hb : t.busy = true) : ResultsKept s t := by
  rcases h with hk | ⟨o, e, r, hf, -⟩
  · exact hk
  · rw [hf.busy] at hb
    cases hb

theorem ResultsKept.of_begun {s t : State} {d : Option Long} (h : ResultsKept (s.begun d) t) : ResultsKept s t :=
  ⟨h.outcome, h.err, h.val0, h.val1, h.val2, h.val3, h.barKind, h.barAddr, h.barSize, h.barPf⟩

/-- Without a reset, a running command and a presented one, a step has no work. -/
theorem StepCase.eq_of_nothing {b t : State} (h : StepCase b t) (hr : b.pins.rst = false) (hb : b.busy = false)
    (hc : b.pins.cmdValid = false) : t = b := by
  have no : ∀ {i}, ¬ Serves b i := by
    rintro i (⟨-, -, h, -⟩ | ⟨h, -, -, -, -⟩)
    · simp [hc] at h
    · simp [hb] at h
  cases h with
  | reset h => simp [hr] at h
  | quiet => rfl
  | illegal _ _ _ h => simp [hc] at h
  | value _ _ _ hi => exact absurd hi no
  | error _ _ _ hi => exact absurd hi no
  | access _ _ _ hi => exact absurd hi no

/-- Settles O53: a step that leaves PCFG BUSY ends no command, and one without a command has no work. -/
theorem resultsChangeOnlyAtCompletion : Obligations.ResultsChangeOnlyAtCompletion := by
  intro s t h hr hcase
  obtain ⟨d, hc⟩ := step_cases h
  have hpins := (stepCase_inputsKept hc).pins
  rcases hcase with hb | ⟨hb, hv⟩
  · exact ((stepCase_keepsOrReports hc).kept_of_busy hb).of_begun
  · rw [hc.eq_of_nothing (hpins ▸ hr) hb (hpins ▸ hv)]
    exact begun_resultsKept s d

/-! ### The latches -/

theorem accessStep_cmdL_keyL {i : Instr} {s t : State} (h : AccessStep i s t) (hf : s.fsm ≠ .idle) :
    t.cmdL = s.cmdL ∧ t.keyL = s.keyL := by
  cases h with
  | accepts hi => exact absurd hi hf
  | rawRead hi => exact absurd hi hf
  | _ => exact ⟨rfl, rfl⟩

theorem accessStep_offL {i : Instr} {s t : State} (h : AccessStep i s t) (hf : s.fsm ≠ .idle) (h0 : s.fsm ≠ .hdrRd0)
    (hw : s.fsm ≠ .barRestoreWr) : t.offL = s.offL := by
  cases h with
  | accepts hi => exact absurd hi hf
  | rawRead hi => exact absurd hi hf
  | capabilities hi => exact absurd hi h0
  | upperRead hi => exact absurd hi hw
  | _ => rfl

theorem accessStep_rawL {i : Instr} {s t : State} (h : AccessStep i s t) (h0 : s.fsm ≠ .hdrRd0)
    (hr : s.fsm ≠ .barRawRd) : t.rawL = s.rawL := by
  cases h with
  | noCapabilities hi => exact absurd hi h0
  | capabilities hi => exact absurd hi h0
  | ioBar hi => exact absurd hi hr
  | reservedType hi => exact absurd hi hr
  | onesWrite hi => exact absurd hi hr
  | _ => rfl

theorem accessStep_backL {i : Instr} {s t : State} (h : AccessStep i s t) (hf : s.fsm ≠ .barBackRd) :
    t.backL = s.backL := by
  cases h with
  | restore hi => exact absurd hi hf
  | _ => rfl

/-- Settles O45: the frame of each transition of `AccessStep`, part by part. -/
theorem accessingCommandsKeepTheRest : Obligations.AccessingCommandsKeepTheRest := by
  intro i s t ha h
  have hs := exec_access ha h
  exact ⟨accessStep_inputsKept hs, (accessStep_keepsOrReports hs).kept_of_busy,
    (accessStep_traceGrows hs).history_prefix, accessStep_cmdL_keyL hs, accessStep_offL hs, accessStep_rawL hs,
    accessStep_backL hs⟩

theorem finish_untouched (s : State) (o : CmdOutcome) (e : BitVec 4) (r : Results) : Untouched s (s.finish o e r) :=
  ⟨finish_latchesKept .., finish_portKept .., finish_inputsKept ..⟩

/-- Settles O30: such a command answers a completion, which touches nothing but the results and the sequencer. -/
theorem immediateCommandsCompleteAndTouchNothingElse : Obligations.ImmediateCommandsCompleteAndTouchNothingElse := by
  intro i s ha
  rcases exec_immediate s ha with ⟨r, he, -⟩ | ⟨c, he⟩
  · exact ⟨_, he, rfl, rfl, finish_untouched s .ok 0#4 r⟩
  · exact ⟨_, he, rfl, rfl, finish_untouched s .error (errorCode c) {}⟩

/-! ### BUSY -/

/-- What `goto` leaves agrees (R22, R23). -/
theorem busyAgrees_of_eq {t : State} (h : t.busy = (t.fsm != .idle)) : t.BusyAgrees := by
  simp [State.BusyAgrees, h]

theorem accessStep_busyAgrees {i : Instr} {s t : State} (hs : s.BusyAgrees) (h : AccessStep i s t) : t.BusyAgrees := by
  cases h with
  | waits | presents => exact hs
  | _ => exact busyAgrees_of_eq rfl

theorem stepCase_busyAgrees {b t : State} (hb : b.BusyAgrees) (h : StepCase b t) : t.BusyAgrees := by
  cases h with
  | quiet => exact hb
  | access _ _ _ _ h => exact accessStep_busyAgrees hb h
  | _ => exact busyAgrees_of_eq rfl

/-- Settles O47: the sequencer moves only by `goto`, which moves BUSY with it. -/
theorem stepKeepsBusyAgreement : Obligations.StepKeepsBusyAgreement := by
  intro s t hs h
  obtain ⟨d, hc⟩ := step_cases h
  exact stepCase_busyAgrees (b := s.begun d) hs hc

/-- Settles O10: the latched command runs on the state with the step's inputs sampled. -/
theorem stepRunsTheLatchedCommand : Obligations.StepRunsTheLatchedCommand := by
  intro s p rest w i ha hb hi hrst hr hw hd
  rw [step_latched hb (ha.mp hb) hi hr hrst hw hd, begun_none hi]

end Sys2Proof.Machine
end

section
/-! PROOFS. The agreement of the sequencer, the latches and the port: what `Sequenced` says in each state of the sequencer, what it says
of the running command, and that every transition keeps it (R24, R46, R124, R131, R134 to R143). -/

namespace Sys2Proof.Machine

/-! ### `Sequenced`, state by state -/

section
variable {s : State}

theorem sequenced_idle (hf : s.fsm = .idle) : s.Sequenced ↔ s.port = none ∧ s.pending = none := by
  simp only [State.Sequenced, hf]

theorem sequenced_hdrRd0 (hf : s.fsm = .hdrRd0) : s.Sequenced ↔ ∃ w i key off, s.cmdL = some w ∧ decode w = .ok i ∧
    headerOffset i = some off ∧ s.keyL = some key ∧ s.offL = some off ∧ s.port = some (.read key off) ∧
    s.pending = none := by
  simp only [State.Sequenced, hf]

theorem sequenced_hdrRd1 (hf : s.fsm = .hdrRd1) : s.Sequenced ↔ ∃ w key, s.cmdL = some w ∧
    decode w = .ok .cfgCapPointer ∧ s.keyL = some key ∧ s.offL = some 0x34#12 ∧
    (∃ raw, s.rawL = some raw ∧ raw.getLsbD 20 = true) ∧ s.Current (.read key 0x34#12) := by
  simp only [State.Sequenced, hf]

theorem sequenced_barRawRd (hf : s.fsm = .barRawRd) : s.Sequenced ↔ ∃ slot key, s.pending = none ∧
    ProbeRunning s slot key (barOffset slot) (.read key (barOffset slot)) := by
  simp only [State.Sequenced, hf]

theorem sequenced_barOnesWr (hf : s.fsm = .barOnesWr) : s.Sequenced ↔ ∃ slot key raw, s.rawL = some raw ∧ probed raw ∧
    ProbeRunning s slot key (barOffset slot) (.write key (barOffset slot) allOnes) := by
  simp only [State.Sequenced, hf]

theorem sequenced_barBackRd (hf : s.fsm = .barBackRd) : s.Sequenced ↔ ∃ slot key raw, s.rawL = some raw ∧ probed raw ∧
    ProbeRunning s slot key (barOffset slot) (.read key (barOffset slot)) := by
  simp only [State.Sequenced, hf]

theorem sequenced_barRestoreWr (hf : s.fsm = .barRestoreWr) : s.Sequenced ↔ ∃ slot key raw back, s.rawL = some raw ∧
    probed raw ∧ s.backL = some back ∧
    ProbeRunning s slot key (barOffset slot) (.write key (barOffset slot) raw) := by
  simp only [State.Sequenced, hf]

theorem sequenced_barUpperRd (hf : s.fsm = .barUpperRd) : s.Sequenced ↔ ∃ slot key raw back, s.rawL = some raw ∧
    raw.getLsbD 0 = false ∧ memoryType raw = 0b10#2 ∧ s.backL = some back ∧ sizeRemainder back ≠ 0#32 ∧
    ProbeRunning s slot key (barOffset slot + 4#12) (.read key (barOffset slot + 4#12)) := by
  simp only [State.Sequenced, hf]

end

/-! ### The running command -/

/-- CMD_L holds at most one command. -/
theorem latched_unique {s : State} {w w' : Word} {i j : Instr} (hw : s.cmdL = some w) (hd : decode w = .ok i)
    (hw' : s.cmdL = some w') (hd' : decode w' = .ok j) : i = j := by
  obtain rfl := Option.some.inj (hw.symm.trans hw')
  exact Except.ok.inj (hd.symm.trans hd')

/-- The probe in CMD_L is the command that runs. -/
theorem ProbeRunning.eq_barProbe {s : State} {slot : Nat} {key : Word} {off : Off} {x : Transaction} {w : Word} {i : Instr}
    (m : ProbeRunning s slot key off x) (hw : s.cmdL = some w) (hd : decode w = .ok i) : i = .barProbe slot :=
  let ⟨_, hw', hd'⟩ := m.cmd
  latched_unique hw hd hw' hd'

theorem ProbeRunning.access_eq {s : State} {slot : Nat} {key key' : Word} {off off' : Off} {x : Transaction}
    (m : ProbeRunning s slot key off x) (hk : s.keyL = some key') (ho : s.offL = some off') : key' = key ∧ off' = off :=
  ⟨Option.some.inj (hk.symm.trans m.key), Option.some.inj (ho.symm.trans m.off)⟩

theorem ProbeRunning.latched {s : State} {slot : Nat} {key : Word} {off : Off} {x : Transaction}
    (m : ProbeRunning s slot key off x) : ∃ w i, s.cmdL = some w ∧ decode w = .ok i ∧ accesses i = true :=
  let ⟨w, hw, hd⟩ := m.cmd
  ⟨w, _, hw, hd, rfl⟩

/-- A probe that prepares its next transaction still runs. -/
theorem ProbeRunning.prepare {s u : State} {slot : Nat} {key : Word} {off off' : Off} {x y : Transaction}
    {f : Fsm} (m : ProbeRunning s slot key off x) (hc : u.cmdL = s.cmdL) (hk : u.keyL = s.keyL) (ho : u.offL = some off')
    (hp : u.port = none) : ProbeRunning (u.prepare y f) slot key off' y :=
  ⟨m.cmd.imp fun _ h => ⟨hc.trans h.1, h.2⟩, m.slot, hk.trans m.key, ho, .inr ⟨hp, rfl⟩⟩

theorem accesses_of_headerOffset {i : Instr} {off : Off} (h : headerOffset i = some off) : accesses i = true := by
  unfold accesses
  split
  · rfl
  · rw [h]
    rfl

/-- While the sequencer is not IDLE, CMD_L holds a command with accesses. -/
theorem State.Sequenced.latched {s : State} (hs : s.Sequenced) (hf : s.fsm ≠ .idle) :
    ∃ w i, s.cmdL = some w ∧ decode w = .ok i ∧ accesses i = true := by
  cases h : s.fsm with
  | idle => exact absurd h hf
  | hdrRd0 =>
    obtain ⟨w, i, key, off, hw, hd, ho, -⟩ := (sequenced_hdrRd0 h).mp hs
    exact ⟨w, i, hw, hd, accesses_of_headerOffset ho⟩
  | hdrRd1 =>
    obtain ⟨w, key, hw, hd, -⟩ := (sequenced_hdrRd1 h).mp hs
    exact ⟨w, _, hw, hd, rfl⟩
  | barRawRd =>
    obtain ⟨slot, key, -, m⟩ := (sequenced_barRawRd h).mp hs
    exact m.latched
  | barOnesWr =>
    obtain ⟨slot, key, raw, -, -, m⟩ := (sequenced_barOnesWr h).mp hs
    exact m.latched
  | barBackRd =>
    obtain ⟨slot, key, raw, -, -, m⟩ := (sequenced_barBackRd h).mp hs
    exact m.latched
  | barRestoreWr =>
    obtain ⟨slot, key, raw, back, -, -, -, m⟩ := (sequenced_barRestoreWr h).mp hs
    exact m.latched
  | barUpperRd =>
    obtain ⟨slot, key, raw, back, -, -, -, -, -, m⟩ := (sequenced_barUpperRd h).mp hs
    exact m.latched

/-- A command accepted in this step is the presented one. -/
theorem Serves.presented_of_idle {s : State} {i : Instr} (h : Serves s i) (hf : s.fsm = .idle) :
    decode s.pins.cmd = .ok i := by
  cases h with
  | presented _ _ _ hd => exact hd
  | latched _ hn => exact absurd hf hn

/-- A command that goes on in this step is the latched one. -/
theorem Serves.latched_of_not_idle {s : State} {i : Instr} (h : Serves s i) (hf : s.fsm ≠ .idle) :
    ∃ w, s.cmdL = some w ∧ decode w = .ok i := by
  cases h with
  | presented _ hi => exact absurd hi hf
  | latched _ _ w hw hd => exact ⟨w, hw, hd⟩

/-- A command without accesses is never found in CMD_L, so it is served only when the sequencer is IDLE. -/
theorem Serves.idle_of_immediate {s : State} {i : Instr} (h : Serves s i) (hs : s.Sequenced) (ha : accesses i = false) :
    s.fsm = .idle := by
  by_contra hf
  obtain ⟨w, hw, hd⟩ := h.latched_of_not_idle hf
  obtain ⟨w', j, hw', hd', hj⟩ := hs.latched hf
  rw [latched_unique hw hd hw' hd', hj] at ha
  cases ha

/-! ### Every transition keeps the agreement -/

/-- A completion with nothing outstanding and nothing to present leaves the sequencer IDLE in agreement. -/
theorem finish_sequenced {u : State} {o : CmdOutcome} {e : BitVec 4} {r : Results} (h : u.port = none ∧ u.pending = none) :
    (u.finish o e r).Sequenced :=
  (sequenced_idle rfl).mpr h

/-- In the step in which a transaction completes, none is to be presented. -/
theorem pending_of_completion {s : State} {v : Word} (hs : s.Sequenced) (hc : s.completion = some v) : s.pending = none := by
  rcases sequenced_exclusive hs with hp | hp
  · have h := (completion_eq_some.mp hc).1
    rw [hp] at h
    cases h
  · exact hp

/-- A command that ends in the step in which its transaction completes leaves the sequencer IDLE in agreement. -/
theorem finish_done_sequenced {s u : State} {v : Word} {o : CmdOutcome} {e : BitVec 4} {r : Results} (hs : s.Sequenced)
    (hc : s.completion = some v) (hp : u.port = none) (hn : u.pending = s.pending) : (u.finish o e r).Sequenced :=
  finish_sequenced ⟨hp, hn.trans (pending_of_completion hs hc)⟩

theorem accessStep_sequenced {i : Instr} {s t : State} (hs : s.Sequenced) (hi : Serves s i) (h : AccessStep i s t) :
    t.Sequenced := by
  cases h with
  | waits => exact hs
  | presents hf hp hx => exact present_sequenced hs hp hx
  | accepts hf ho =>
    exact (sequenced_hdrRd0 rfl).mpr ⟨_, i, _, _, rfl, hi.presented_of_idle hf, ho, rfl, rfl, rfl, rfl⟩
  | completes o r hf hh hcap hc => exact finish_done_sequenced hs hc rfl rfl
  | noCapabilities hf hc => exact finish_done_sequenced hs hc rfl rfl
  | capabilities hf hc hv hk =>
    obtain ⟨w, hw, hd⟩ := hi.latched_of_not_idle (by simp [hf])
    exact (sequenced_hdrRd1 rfl).mpr ⟨w, _, hw, hd, hk, rfl, ⟨_, rfl, hv⟩, .inr ⟨rfl, rfl⟩⟩
  | pointer hf hc => exact finish_done_sequenced hs hc rfl rfl
  | badSlot hf => exact finish_sequenced ((sequenced_idle hf).mp hs)
  | rawRead hf hslot =>
    exact (sequenced_barRawRd rfl).mpr
      ⟨_, _, rfl, ⟨_, rfl, hi.presented_of_idle hf⟩, hslot, rfl, rfl, .inl ⟨rfl, rfl⟩⟩
  | ioBar hf hc => exact finish_done_sequenced hs hc rfl rfl
  | reservedType hf hc => exact finish_done_sequenced hs hc rfl rfl
  | onesWrite hf hc hv hk ho =>
    obtain ⟨slot, key, -, m⟩ := (sequenced_barRawRd hf).mp hs
    obtain ⟨rfl, rfl⟩ := m.access_eq hk ho
    exact (sequenced_barOnesWr rfl).mpr ⟨slot, _, _, rfl, hv, m.prepare rfl rfl ho rfl⟩
  | readBack hf hc hk ho =>
    obtain ⟨slot, key, raw, hr, hv, m⟩ := (sequenced_barOnesWr hf).mp hs
    obtain ⟨rfl, rfl⟩ := m.access_eq hk ho
    exact (sequenced_barBackRd rfl).mpr ⟨slot, _, raw, hr, hv, m.prepare rfl rfl ho rfl⟩
  | restore hf hc hk ho hr =>
    obtain ⟨slot, key, raw, hr', hv, m⟩ := (sequenced_barBackRd hf).mp hs
    obtain ⟨rfl, rfl⟩ := m.access_eq hk ho
    obtain rfl := Option.some.inj (hr.symm.trans hr')
    exact (sequenced_barRestoreWr rfl).mpr ⟨slot, _, _, _, hr, hv, rfl, m.prepare rfl rfl ho rfl⟩
  | absentBar hf hc => exact finish_done_sequenced hs hc rfl rfl
  | noSize hf hc => exact finish_done_sequenced hs hc rfl rfl
  | memory32 hf hc => exact finish_done_sequenced hs hc rfl rfl
  | upperRead hf hc hr hb hz ht hk ho =>
    obtain ⟨slot, key, raw, back, hr', ⟨h0, hm⟩, -, m⟩ := (sequenced_barRestoreWr hf).mp hs
    obtain ⟨rfl, rfl⟩ := m.access_eq hk ho
    obtain rfl := Option.some.inj (hr.symm.trans hr')
    exact (sequenced_barUpperRd rfl).mpr
      ⟨slot, _, _, _, hr, h0, hm.resolve_left ht, hb, hz, m.prepare rfl rfl rfl rfl⟩
  | memory64 hf hc => exact finish_done_sequenced hs hc rfl rfl

theorem stepCase_sequenced {b t : State} (hs : b.Sequenced) (h : StepCase b t) : t.Sequenced := by
  cases h with
  | reset => exact (sequenced_idle rfl).mpr ⟨rfl, rfl⟩
  | quiet => exact hs
  | illegal _ _ hf => exact finish_sequenced ((sequenced_idle hf).mp hs)
  | value _ _ ha hi => exact finish_sequenced ((sequenced_idle (hi.idle_of_immediate hs ha)).mp hs)
  | error _ _ ha hi => exact finish_sequenced ((sequenced_idle (hi.idle_of_immediate hs ha)).mp hs)
  | access _ _ _ hi h => exact accessStep_sequenced hs hi h

theorem begun_inv {s : State} (hs : s.Inv) (d : Option Long) : (s.begun d).Inv :=
  ⟨hs.busy, begun_sequenced hs.sequenced d, hs.counted⟩

theorem stepCase_inv {b t : State} (hb : b.Inv) (h : StepCase b t) : t.Inv :=
  ⟨stepCase_busyAgrees hb.busy h, stepCase_sequenced hb.sequenced h, (stepCase_traceGrows h).counted hb.counted⟩

/-- Settles O48: the three parts of the invariant, each kept by every transition. -/
theorem stepKeepsTheSequencerInvariant : Obligations.StepKeepsTheSequencerInvariant := by
  intro s t hs h
  obtain ⟨d, hc⟩ := step_cases h
  exact stepCase_inv (begun_inv hs d) hc

end Sys2Proof.Machine
end

section
/-! PROOFS. The state after reset (R43, R169). -/

namespace Sys2Proof.Machine

theorem reset_finished : Finished State.reset 0#2 0#4 {} := applyReset_finished State.reset

/-- Settles O7: every register and latch at its reset value. -/
theorem resetStateHoldsTheListedValues : Obligations.ResetStateHoldsTheListedValues :=
  ⟨rfl, rfl, rfl, rfl, rfl, rfl, rfl, rfl, reset_finished⟩

theorem reset_inv : State.reset.Inv where
  busy := busyAgrees_of_eq rfl
  sequenced := (sequenced_idle rfl).mpr ⟨rfl, rfl⟩
  counted := rfl

/-- Settles O46: with nothing latched, nothing issued and every result empty. -/
theorem resetStateMeetsTheInvariants : Obligations.ResetStateMeetsTheInvariants := by
  refine ⟨reset_inv, ?traced, reset_finished.resultsAgree .nothing, ?size, ?offsets⟩
  case traced =>
    intro w slot key hw
    cases hw
  case size =>
    intro z hz
    cases hz
  case offsets =>
    intro x hx
    cases hx

end Sys2Proof.Machine
end

section
/-! PROOFS. From a state that meets the invariant the work of a step goes on to a next state, whatever the sequencer's state; a host read
of a register that holds a value is then always served (R15, R22, R25 to R32, R182; log entry 5). -/

namespace Sys2Proof.Machine

/-! ### A command goes on -/

theorem onReadDone_goes {s : State} {k : Word → State → StepOutcome} (h : ∀ v, ∃ t, k v (s.retire (.readDone v)) = .next t) :
    ∃ t, s.onReadDone k = .next t := by
  cases hc : s.completion with
  | none => exact ⟨_, onReadDone_none hc⟩
  | some v => exact (h v).imp fun _ ht => (onReadDone_some hc).trans ht

theorem onWriteDone_goes {s : State} {k : State → StepOutcome} (h : ∃ t, k (s.retire .writeDone) = .next t) :
    ∃ t, s.onWriteDone k = .next t := by
  cases hc : s.completion with
  | none => exact ⟨_, onWriteDone_none hc⟩
  | some v => exact h.imp fun _ ht => (onWriteDone_some hc).trans ht

/-- The six header commands of one read go on in IDLE and in HDR_RD0. -/
theorem headerRead_goes {off : Off} {complete : Word → State → StepOutcome} {s : State} (ho : offsetOk off = true)
    (hf : s.fsm = .idle ∨ s.fsm = .hdrRd0) (hc : ∀ v u, ∃ t, complete v u = .next t) :
    ∃ t, headerRead off complete s = .next t := by
  unfold headerRead
  rcases hf with hf | hf <;> rw [hf]
  · exact ⟨_, acceptRead_ok ho⟩
  · exact onReadDone_goes fun v => hc v _

theorem capPointerGate_goes {s : State} {key : Word} (v : Word) (hk : s.keyL = some key) :
    ∃ t, capPointerGate v s = .next t := by
  unfold capPointerGate
  split
  · exact ⟨_, Eq.trans (withKey_some hk) (issueNext_read (by decide))⟩
  · exact ⟨_, rfl⟩

/-- A header command goes on in IDLE, and in HDR_RD0 with a key latched. -/
theorem exec_header_goes {i : Instr} {s : State} (hi : (headerOffset i).isSome = true)
    (hf : s.fsm = .idle ∨ s.fsm = .hdrRd0 ∧ ∃ key, s.keyL = some key) : ∃ t, exec i s = .next t := by
  have hf' := hf.imp_right And.left
  cases i
  case cfgIdentity => exact headerRead_goes (by decide) hf' fun _ _ => ⟨_, rfl⟩
  case cfgStatus => exact headerRead_goes (by decide) hf' fun _ _ => ⟨_, rfl⟩
  case cfgRevClass => exact headerRead_goes (by decide) hf' fun _ _ => ⟨_, rfl⟩
  case cfgHeaderType => exact headerRead_goes (by decide) hf' fun _ _ => ⟨_, rfl⟩
  case cfgMultifunction => exact headerRead_goes (by decide) hf' fun _ _ => ⟨_, rfl⟩
  case cfgEndpoint =>
    refine headerRead_goes (by decide) hf' fun v u => ?_
    split
    · exact ⟨_, rfl⟩
    · exact ⟨_, rfl⟩
  case cfgCapPointer =>
    simp only [exec, execCfgCapPointer]
    rcases hf with hf | ⟨hf, key, hk⟩ <;> rw [hf]
    · exact ⟨_, acceptRead_ok (by decide)⟩
    · exact onReadDone_goes fun v => capPointerGate_goes v hk
  all_goals cases hi

theorem barAccept_goes (slot : Nat) (s : State) : ∃ t, barAccept slot s = .next t := by
  unfold barAccept
  split
  · exact ⟨_, rfl⟩
  · exact ⟨_, acceptRead_ok (offsetOk_barOffset (by omega))⟩

/-- Every command goes on in IDLE, where it is accepted. -/
theorem exec_idle_goes {s : State} (i : Instr) (hf : s.fsm = .idle) : ∃ t, exec i s = .next t := by
  cases ha : accesses i with
  | false =>
    rcases exec_immediate s ha with ⟨r, he, -⟩ | ⟨c, he⟩
    · exact ⟨_, he⟩
    · exact ⟨_, he⟩
  | true =>
    unfold accesses at ha
    split at ha
    · rename_i slot
      simp only [exec, execBarProbe, hf]
      exact barAccept_goes slot s
    · exact exec_header_goes ha (.inl hf)

theorem barRawDone_goes {s : State} {key : Word} {off : Off} (v : Word) (hk : s.keyL = some key) (ho : s.offL = some off)
    (hok : offsetOk off = true) : ∃ t, barRawDone v s = .next t := by
  unfold barRawDone
  dsimp only
  split
  · exact ⟨_, rfl⟩
  split
  · exact ⟨_, rfl⟩
  · exact ⟨_, Eq.trans (withAccess_some hk ho) (issueNext_write hok)⟩

theorem barOnesDone_goes {s : State} {key : Word} {off : Off} (hk : s.keyL = some key) (ho : s.offL = some off)
    (hok : offsetOk off = true) : ∃ t, barOnesDone s = .next t :=
  ⟨_, Eq.trans (withAccess_some hk ho) (issueNext_read hok)⟩

theorem barBackDone_goes {s : State} {key raw : Word} {off : Off} (v : Word) (hr : s.rawL = some raw)
    (hk : s.keyL = some key) (ho : s.offL = some off) (hok : offsetOk off = true) : ∃ t, barBackDone v s = .next t :=
  ⟨_, Eq.trans (withRaw_some hr) (Eq.trans (withAccess_some hk ho) (issueNext_write hok))⟩

theorem barRestoreDone_goes {s : State} {key raw back : Word} {off : Off} (hr : s.rawL = some raw) (hb : s.backL = some back)
    (hk : s.keyL = some key) (ho : s.offL = some off) (hok : offsetOk (off + 4#12) = true) :
    ∃ t, barRestoreDone s = .next t := by
  unfold barRestoreDone
  rw [withRaw_some hr, withBack_some hb]
  split
  · exact ⟨_, rfl⟩
  split
  · exact ⟨_, rfl⟩
  split
  · exact ⟨_, rfl⟩
  · exact ⟨_, Eq.trans (withAccess_some hk ho) (issueNext_read hok)⟩

theorem barUpperDone_goes {s : State} {raw back : Word} (u : Word) (hr : s.rawL = some raw) (hb : s.backL = some back) :
    ∃ t, barUpperDone u s = .next t :=
  ⟨_, Eq.trans (withRaw_some hr) (withBack_some hb)⟩

/-- The latched command goes on: the sequencer's state has a rule for it, and every latch the rule reads holds a value. -/
theorem exec_latched_goes {s : State} {w : Word} {i : Instr} (hs : s.Sequenced) (hf : s.fsm ≠ .idle)
    (hw : s.cmdL = some w) (hd : decode w = .ok i) : ∃ t, exec i s = .next t := by
  cases h : s.fsm with
  | idle => exact absurd h hf
  | hdrRd0 =>
    obtain ⟨w', j, key, off, hw', hd', ho, hk, -⟩ := (sequenced_hdrRd0 h).mp hs
    obtain rfl := latched_unique hw hd hw' hd'
    exact exec_header_goes (by simp [ho]) (.inr ⟨h, key, hk⟩)
  | hdrRd1 =>
    obtain ⟨w', key, hw', hd', -⟩ := (sequenced_hdrRd1 h).mp hs
    obtain rfl := latched_unique hw hd hw' hd'
    simp only [exec, execCfgCapPointer, h]
    exact onReadDone_goes fun v => ⟨_, rfl⟩
  | barRawRd =>
    obtain ⟨slot, key, -, m⟩ := (sequenced_barRawRd h).mp hs
    obtain rfl := m.eq_barProbe hw hd
    simp only [exec, execBarProbe, h]
    exact onReadDone_goes fun v => barRawDone_goes v m.key m.off (offsetOk_barOffset m.slot)
  | barOnesWr =>
    obtain ⟨slot, key, raw, -, -, m⟩ := (sequenced_barOnesWr h).mp hs
    obtain rfl := m.eq_barProbe hw hd
    simp only [exec, execBarProbe, h]
    exact onWriteDone_goes (barOnesDone_goes m.key m.off (offsetOk_barOffset m.slot))
  | barBackRd =>
    obtain ⟨slot, key, raw, hr, -, m⟩ := (sequenced_barBackRd h).mp hs
    obtain rfl := m.eq_barProbe hw hd
    simp only [exec, execBarProbe, h]
    exact onReadDone_goes fun v => barBackDone_goes v hr m.key m.off (offsetOk_barOffset m.slot)
  | barRestoreWr =>
    obtain ⟨slot, key, raw, back, hr, -, hb, m⟩ := (sequenced_barRestoreWr h).mp hs
    obtain rfl := m.eq_barProbe hw hd
    simp only [exec, execBarProbe, h]
    exact onWriteDone_goes (barRestoreDone_goes hr hb m.key m.off (offsetOk_upperOffset m.slot))
  | barUpperRd =>
    obtain ⟨slot, key, raw, back, hr, -, -, hb, -, m⟩ := (sequenced_barUpperRd h).mp hs
    obtain rfl := m.eq_barProbe hw hd
    simp only [exec, execBarProbe, h]
    exact onReadDone_goes fun v => barUpperDone_goes v hr hb

/-- Once its inputs are sampled and its host read is served, a step from a state that meets the invariant answers a next state. -/
theorem sampledWork_goes {s : State} (hs : s.Inv) : ∃ t, perform (sampledWork s) = .next t := by
  have h := sampledWork_cases s
  generalize sampledWork s = work at h ⊢
  cases h with
  | reset => exact ⟨_, rfl⟩
  | quiet => exact ⟨_, rfl⟩
  | illegal => exact ⟨_, rfl⟩
  | presented _ _ hf _ i => exact exec_idle_goes i hf
  | latched _ _ hf w hw i hd => exact exec_latched_goes hs.sequenced hf hw hd
  | unlatched _ hf hw =>
    obtain ⟨w, i, hw', -⟩ := hs.sequenced.latched hf
    simp [hw] at hw'
  | undecoded _ hf w hw e hd =>
    obtain ⟨w', i, hw', hd', -⟩ := hs.sequenced.latched hf
    obtain rfl := Option.some.inj (hw.symm.trans hw')
    simp [hd] at hd'
  | disagree h => exact absurd hs.busy h

/-- The work of a step that answers a next state is one of the cases of `StepCase`, from the very state it starts from. -/
theorem stepCase_of_sampledWork {b t : State} (hp : perform (sampledWork b) = .next t) : StepCase b t := by
  have h := sampledWork_cases b
  generalize sampledWork b = work at h hp
  cases h with
  | reset hr => exact Host.Outcome.next.inj hp ▸ .reset hr
  | quiet hr hb hf hc => exact Host.Outcome.next.inj hp ▸ .quiet hr hb hf hc
  | illegal hr hb hf hc => exact raiseError_next.mp hp ▸ .illegal hr hb hf hc
  | presented hr hb hf hc i hd => exact stepCase_of_exec hr (.presented hb hf hc hd) hp
  | latched hr hb hf w hw i hd => exact stepCase_of_exec hr (.latched hb hf w hw hd) hp
  | unlatched | undecoded | disagree => cases hp

/-! ### The host's read -/

theorem serveRead_value {s : State} {r : HostReg} {v : Long} (hr : s.pins.read = some r) (hv : s.readRegister r = some v) :
    s.serveRead = .ok (s.showHost (some v)) := by
  simp [State.serveRead, hr, hv]

/-- A step whose host reads a register that holds `v` shows `v` and does its sampled work. -/
theorem step_eq_sampled_of_read {s : State} {p : Pins} {rest : List Pins} {r : HostReg} {v : Long}
    (hi : s.inputs = p :: rest) (hr : p.read = some r) (hv : s.readRegister r = some v) :
    step s = perform (sampledWork (s.begun (some v))) := by
  have h : s.sample.serveRead = .ok (s.begun (some v)) :=
    serveRead_value (by simp [hi, hr]) ((readRegister_sample s r).trans hv)
  simp [step, nextWork, hi, h]

theorem setWidth_eq_of_toNat {n : Nat} {x : BitVec n} {v : Long} (hn : n ≤ 64) (h : v.toNat = x.toNat) :
    x.setWidth 64 = v :=
  BitVec.eq_of_toNat_eq ((BitVec.toNat_setWidth_of_le hn).trans h.symm)

theorem map_setWidth_eq_of_toNat {n : Nat} {o : Option (BitVec n)} {v : Long} (hn : n ≤ 64)
    (h : ∃ x, o = some x ∧ v.toNat = x.toNat) : o.map (BitVec.setWidth 64) = some v := by
  obtain ⟨x, rfl, hv⟩ := h
  exact congrArg some (setWidth_eq_of_toNat hn hv)

/-- Settles O16: the read is served before the step's work, which goes on and leaves what the host gets. -/
theorem hostReadReturnsTheRegister : Obligations.HostReadReturnsTheRegister := by
  intro s p rest r v hi hr hreg
  have hv : s.readRegister r = some v := by
    rcases hreg with ⟨rfl, rfl⟩ | ⟨rfl, h⟩ | ⟨rfl, h⟩ | ⟨rfl, h⟩ | ⟨rfl, h⟩ | ⟨rfl, h⟩ | ⟨rfl, h⟩ | ⟨rfl, h⟩ | ⟨rfl, h⟩ |
      ⟨rfl, h⟩ | ⟨rfl, h⟩
    · cases hb : s.busy <;> simp [State.readRegister, hb]
    · exact congrArg some (setWidth_eq_of_toNat (by decide) h)
    · exact congrArg some (setWidth_eq_of_toNat (by decide) h)
    · exact map_setWidth_eq_of_toNat (by decide) h
    · exact map_setWidth_eq_of_toNat (by decide) h
    · exact map_setWidth_eq_of_toNat (by decide) h
    · exact map_setWidth_eq_of_toNat (by decide) h
    · exact map_setWidth_eq_of_toNat (by decide) h
    · exact h
    · exact h
    · exact map_setWidth_eq_of_toNat (by decide) h
  have hstep := step_eq_sampled_of_read hi hr hv
  refine ⟨fun hs => ?running, fun ⟨hf, hb⟩ hrst hc => ?ready⟩
  case running =>
    obtain ⟨t, ht⟩ := sampledWork_goes (begun_inv hs (some v))
    have hc := stepCase_of_sampledWork ht
    exact ⟨t, hstep.trans ht, (stepCase_inputsKept hc).hostData, fun hb =>
      ((stepCase_keepsOrReports hc).kept_of_busy hb).of_begun⟩
  case ready =>
    have hq : sampledWork (s.begun (some v)) = .ends (.next (s.begun (some v))) := by
      simp [sampledWork, presentedWork, hf, hb, hi, hrst, hc]
    exact ⟨s.begun (some v), by rw [hstep, hq]; rfl, rfl, begun_resultsKept s _, ⟨rfl, rfl, rfl, rfl, rfl⟩,
      ⟨rfl, rfl, rfl, rfl⟩, hf, hb⟩

end Sys2Proof.Machine
end

section
/-! PROOFS. What every step does on the port: nothing, one issue from an empty port, or one completion from a full one (R46, R61); with
the sequencer's agreement, which names the transaction outstanding in each state, every issue is a legal one (R38, R47, R58). -/

namespace Sys2Proof.Machine

/-! ### The transactions the sequencer's agreement names are legal -/

theorem headerOffset_read_legal {i : Instr} {off : Off} (h : headerOffset i = some off) (key : Word) :
    (Transaction.read key off).legal := by
  unfold headerOffset at h
  split at h <;> cases h
  all_goals simp [Transaction.legal]

theorem barOffset_mem {slot : Nat} (h : slot ≤ 5) :
    (barOffset slot).toNat ∈ [0x10, 0x14, 0x18, 0x1C, 0x20, 0x24] := by
  rw [barOffset_toNat h]
  interval_cases slot <;> decide

theorem barOffset_read_legal {slot : Nat} (h : slot ≤ 5) (key : Word) :
    (Transaction.read key (barOffset slot)).legal := by
  have hm := barOffset_mem h
  simp only [Transaction.legal, List.mem_cons, List.not_mem_nil, or_false] at hm ⊢
  tauto

/-- The upper half of a BAR in the last slot is at 0x28, which only a read may name. -/
theorem upperOffset_read_legal {slot : Nat} (h : slot ≤ 5) (key : Word) :
    (Transaction.read key (barOffset slot + 4#12)).legal := by
  simp only [Transaction.legal, upperOffset_toNat h]
  interval_cases slot <;> decide

/-- The outstanding transaction is the current one. -/
theorem State.Current.eq_of_port {s : State} {x y : Transaction} (hc : s.Current y) (hp : s.port = some x) : y = x := by
  rcases hc with ⟨h, -⟩ | ⟨h, -⟩
  · exact Option.some.inj (h.symm.trans hp)
  · simp [hp] at h

/-- In every state of the sequencer the outstanding transaction is one PCFG may issue. -/
theorem State.Sequenced.port_legal {s : State} {x : Transaction} (hs : s.Sequenced) (hp : s.port = some x) : x.legal := by
  cases h : s.fsm with
  | idle => simp [((sequenced_idle h).mp hs).1] at hp
  | hdrRd0 =>
    obtain ⟨w, i, key, off, -, -, ho, -, -, hx, -⟩ := (sequenced_hdrRd0 h).mp hs
    obtain rfl := Option.some.inj (hx.symm.trans hp)
    exact headerOffset_read_legal ho key
  | hdrRd1 =>
    obtain ⟨w, key, -, -, -, -, -, hc⟩ := (sequenced_hdrRd1 h).mp hs
    obtain rfl := State.Current.eq_of_port hc hp
    simp [Transaction.legal]
  | barRawRd =>
    obtain ⟨slot, key, -, m⟩ := (sequenced_barRawRd h).mp hs
    obtain rfl := m.current.eq_of_port hp
    exact barOffset_read_legal m.slot key
  | barOnesWr =>
    obtain ⟨slot, key, raw, -, -, m⟩ := (sequenced_barOnesWr h).mp hs
    obtain rfl := m.current.eq_of_port hp
    exact barOffset_mem m.slot
  | barBackRd =>
    obtain ⟨slot, key, raw, -, -, m⟩ := (sequenced_barBackRd h).mp hs
    obtain rfl := m.current.eq_of_port hp
    exact barOffset_read_legal m.slot key
  | barRestoreWr =>
    obtain ⟨slot, key, raw, back, -, -, -, m⟩ := (sequenced_barRestoreWr h).mp hs
    obtain rfl := m.current.eq_of_port hp
    exact barOffset_mem m.slot
  | barUpperRd =>
    obtain ⟨slot, key, raw, back, -, -, -, -, -, m⟩ := (sequenced_barUpperRd h).mp hs
    obtain rfl := m.current.eq_of_port hp
    exact upperOffset_read_legal m.slot key

/-! ### What a step does on the port -/

/-- What a step does on the port, and what the trace records of it. -/
inductive PortMoves (s t : State) : Prop where
  | keeps (hh : t.history = s.history)
  | issues (x : Transaction) (hs : s.port = none) (hh : t.history = s.history ++ [.issued x]) (ht : t.port = some x)
  | completes (e : Event) (hs : s.port.isSome = true) (he : ∀ x, e ≠ .issued x) (hh : t.history = s.history ++ [e])
      (ht : t.port = none)

/-- A transition on a completion takes the outstanding transaction off the port. -/
theorem portMoves_of_completion {s t : State} {v : Word} (hc : s.completion = some v) {e : Event} (he : ∀ x, e ≠ .issued x)
    (hh : t.history = s.history ++ [e]) (ht : t.port = none) : PortMoves s t :=
  .completes e (completion_eq_some.mp hc).1 he hh ht

theorem accessStep_portMoves {i : Instr} {s t : State} (hs : s.Sequenced) (h : AccessStep i s t) : PortMoves s t := by
  cases h with
  | waits | badSlot => exact .keeps rfl
  | presents hf hp => exact .issues _ hp rfl rfl
  | accepts hf | rawRead hf => exact .issues _ ((sequenced_idle hf).mp hs).1 rfl rfl
  | completes o r hf hi hcap hc => exact portMoves_of_completion hc (e := .readDone _) nofun rfl rfl
  | noCapabilities hf hc | capabilities hf hc | pointer hf hc | ioBar hf hc | reservedType hf hc | onesWrite hf hc
  | restore hf hc | memory64 hf hc => exact portMoves_of_completion hc (e := .readDone _) nofun rfl rfl
  | readBack hf hc | absentBar hf hc | noSize hf hc | memory32 hf hc | upperRead hf hc =>
    exact portMoves_of_completion hc (e := .writeDone) nofun rfl rfl

theorem stepCase_portMoves {b t : State} (hs : b.Sequenced) (h : StepCase b t) : PortMoves b t := by
  cases h with
  | access _ _ _ _ h => exact accessStep_portMoves hs h
  | _ => exact .keeps rfl

theorem issuedIn_of_not_issued {e : Event} (h : ∀ x, e ≠ .issued x) : issuedIn [e] = [] := by
  cases e with
  | issued x => exact absurd rfl (h x)
  | readDone v => rfl
  | writeDone => rfl

/-- Settles O54: the three ways a step moves the port. -/
theorem atMostOneTransactionOutstanding : Obligations.AtMostOneTransactionOutstanding := by
  intro s t hs h
  obtain ⟨d, hc⟩ := step_cases h
  cases stepCase_portMoves (begun_sequenced hs.sequenced d) hc with
  | keeps hh => exact .inl hh
  | issues x hp hh ht => exact .inr (.inl ⟨x, hp, hh, ht⟩)
  | completes e hp he hh ht => exact .inr (.inr ⟨e, hp, he, hh, ht⟩)

/-- Settles O52: an issued transaction is outstanding after the step, in a state that meets the agreement again. -/
theorem stepIssuesOnlyListedOffsets : Obligations.StepIssuesOnlyListedOffsets := by
  intro s t hs hl h x hx
  have ht := stepKeepsTheSequencerInvariant s t hs h
  rcases atMostOneTransactionOutstanding s t hs h with hh | ⟨y, -, hh, hy⟩ | ⟨e, -, he, hh, -⟩
  · exact hl x (hh ▸ hx)
  · rw [hh, issuedIn_append, List.mem_append] at hx
    rcases hx with hx | hx
    · exact hl x hx
    · obtain rfl := List.mem_singleton.mp hx
      exact ht.sequenced.port_legal hy
  · rw [hh, issuedIn_append, issuedIn_of_not_issued he, List.append_nil] at hx
    exact hl x hx

end Sys2Proof.Machine
end

section
/-! PROOFS. A step in which nothing completes: the pending transaction is presented (R46), and without an input for the outstanding one
PCFG is stuck (R51). -/

namespace Sys2Proof.Machine

theorem presentPending_eq_present {s : State} {x : Transaction} (hp : s.port = none) (hx : s.pending = some x) :
    s.presentPending = s.present x := by
  simp [State.presentPending, hp, hx]

theorem completion_of_port_none {s : State} (hp : s.port = none) : s.completion = none := by
  simp [State.completion, hp]

/-- A running command does nothing more than `presentPending` in a step in which nothing completes. -/
theorem AccessStep.eq_presentPending {i : Instr} {s t : State} (h : AccessStep i s t) (hf : s.fsm ≠ .idle)
    (hc : s.completion = none) : t = s.presentPending := by
  have no : ∀ {v}, s.completion ≠ some v := by simp [hc]
  cases h with
  | waits _ _ hp =>
    rcases presentPending_cases s with ⟨he, -⟩ | ⟨x, hp', hx, -⟩
    · exact he.symm
    · simp [hp hp'] at hx
  | presents _ hp hx => exact (presentPending_eq_present hp hx).symm
  | accepts hi | badSlot hi | rawRead hi => exact absurd hi hf
  | completes o r _ _ _ hv => exact absurd hv no
  | noCapabilities _ hv | capabilities _ hv | pointer _ hv | ioBar _ hv | reservedType _ hv | onesWrite _ hv
  | readBack _ hv | restore _ hv | absentBar _ hv | noSize _ hv | memory32 _ hv | upperRead _ hv | memory64 _ hv =>
    exact absurd hv no

theorem exec_latched_presentPending {s : State} {w : Word} {i : Instr} (hs : s.Sequenced) (hf : s.fsm ≠ .idle)
    (hw : s.cmdL = some w) (hd : decode w = .ok i) (hc : s.completion = none) :
    exec i s = .next s.presentPending := by
  obtain ⟨t, ht⟩ := exec_latched_goes hs hf hw hd
  obtain ⟨w', j, hw', hd', ha⟩ := hs.latched hf
  obtain rfl := latched_unique hw hd hw' hd'
  rw [ht, (exec_access ha ht).eq_presentPending hf hc]

/-- A transaction is pending only while a command runs, with nothing outstanding. -/
theorem State.Sequenced.of_pending {s : State} {x : Transaction} (hs : s.Sequenced) (hx : s.pending = some x) :
    s.fsm ≠ .idle ∧ s.port = none := by
  constructor
  · intro hf
    simp [((sequenced_idle hf).mp hs).2] at hx
  · exact (sequenced_exclusive hs).resolve_right (by simp [hx])

/-- Settles O13: nothing is outstanding, so nothing completes and the running command presents what is pending. -/
theorem pendingTransactionIsPresentedNext : Obligations.PendingTransactionIsPresentedNext := by
  intro s p rest x hs hx hi hrst hr
  obtain ⟨hf, hp⟩ := hs.sequenced.of_pending hx
  obtain ⟨w, i, hw, hd, -⟩ := hs.sequenced.latched hf
  calc step s = exec i (s.begun none) := step_latched (hs.busy.mpr hf) hf hi hr hrst hw hd
    _ = .next (s.begun none).presentPending :=
      exec_latched_presentPending (begun_sequenced hs.sequenced none) hf hw hd (completion_of_port_none hp)
    _ = .next ((s.begun none).present x) := by rw [presentPending_eq_present (s := s.begun none) hp hx]
    _ = _ := by rw [begun_none hi]; rfl

/-- Settles O14: the step looks for an input before it does anything else. -/
theorem stallIsStuck : Obligations.StallIsStuck := by
  intro s hp hi
  have hw : nextWork s = .ends (.fault .stalled) := by simp [nextWork, hp, hi]
  rw [step, hw]
  rfl

end Sys2Proof.Machine
end

section
/-! PROOFS. Every operation appends to the trace and none reads it: from a state with a longer past the model does the same, faults
included, with that past kept in front (R49, R166). -/

namespace Sys2Proof.Machine

/-- `s` with the events `h` in its trace before its own. -/
def State.withPast (h : List Event) (s : State) : State := { s with history := h ++ s.history }

/-- `s` with an empty trace. -/
def State.withoutTrace (s : State) : State := { s with history := [] }

/-- A part of a step does the same whatever came before in the trace. -/
def TraceFree (k : State → StepOutcome) : Prop :=
  ∀ h s, k (s.withPast h) = onNext (State.withPast h) (k s)

/-! ### What a longer past leaves and where it goes -/

section
variable (h : List Event) (s : State)

@[simp] theorem State.withPast_fsm : (s.withPast h).fsm = s.fsm := rfl
@[simp] theorem State.withPast_cmdL : (s.withPast h).cmdL = s.cmdL := rfl
@[simp] theorem State.withPast_keyL : (s.withPast h).keyL = s.keyL := rfl
@[simp] theorem State.withPast_offL : (s.withPast h).offL = s.offL := rfl
@[simp] theorem State.withPast_rawL : (s.withPast h).rawL = s.rawL := rfl
@[simp] theorem State.withPast_backL : (s.withPast h).backL = s.backL := rfl
@[simp] theorem State.withPast_port : (s.withPast h).port = s.port := rfl
@[simp] theorem State.withPast_pending : (s.withPast h).pending = s.pending := rfl
@[simp] theorem State.withPast_pins : (s.withPast h).pins = s.pins := rfl
@[simp] theorem State.withPast_inputs : (s.withPast h).inputs = s.inputs := rfl
@[simp] theorem State.withPast_completion : (s.withPast h).completion = s.completion := rfl
@[simp] theorem State.withPast_sample : (s.withPast h).sample = s.sample.withPast h := rfl

theorem withPast_withoutTrace : s.withoutTrace.withPast h = { s with history := h } := by
  simp [State.withPast, State.withoutTrace]

theorem present_withPast (x : Transaction) : (s.withPast h).present x = (s.present x).withPast h := by
  simp [State.present, State.withPast]

theorem retire_withPast (e : Event) : (s.withPast h).retire e = (s.retire e).withPast h := by
  simp [State.retire, State.withPast]

theorem presentPending_withPast : (s.withPast h).presentPending = s.presentPending.withPast h := by
  unfold State.presentPending
  rw [State.withPast_port, State.withPast_pending]
  cases s.port with
  | some y => rfl
  | none =>
    cases s.pending with
    | none => rfl
    | some x => exact present_withPast h s x

theorem inContract_withPast (x : Transaction) :
    inContract x (s.withPast h) = onNext (State.withPast h) (inContract x s) := by
  unfold inContract
  split <;> rfl

theorem readRegister_withPast (r : HostReg) : (s.withPast h).readRegister r = s.readRegister r := by
  cases r <;> rfl

theorem serveRead_withPast : (s.withPast h).serveRead = s.serveRead.map (State.withPast h) := by
  unfold State.serveRead
  rw [State.withPast_pins]
  cases s.pins.read with
  | none => rfl
  | some r =>
    simp only [readRegister_withPast]
    cases s.readRegister r <;> rfl

end

theorem next_of_onNext {f : State → State} {o : StepOutcome} {t : State} (h : onNext f o = .next t) :
    ∃ u, o = .next u ∧ f u = t := by
  cases o with
  | next u => exact ⟨u, rfl, Host.Outcome.next.inj h⟩
  | fault | refused => cases h

/-! ### The operations -/

namespace TraceFree

/-- A choice whose condition does not read the trace. -/
theorem ite {c : State → Prop} {_ : DecidablePred c} {k k' : State → StepOutcome} (hk : TraceFree k)
    (hk' : TraceFree k') (hc : ∀ h s, c (s.withPast h) ↔ c s := by exact fun _ _ => Iff.rfl) :
    TraceFree fun s => if c s then k s else k' s := by
  intro h s
  simp only [hc h s]
  split
  · exact hk h s
  · exact hk' h s

theorem issueNext (x : Transaction) (f : Fsm) : TraceFree (·.issueNext x f) :=
  fun h s => inContract_withPast h (s.prepare x f) x

theorem latchOff_issueNext (off : Off) (x : Transaction) (f : Fsm) : TraceFree fun s => (s.latchOff off).issueNext x f :=
  fun h s => issueNext x f h (s.latchOff off)

theorem acceptRead (off : Off) (f : Fsm) : TraceFree (·.acceptRead off f) := fun h s =>
  (congrArg (inContract _) (present_withPast h ((s.latchCommand off).goto f) _)).trans (inContract_withPast h _ _)

/-- A continuation on a completion, which the trace records as `e v`. -/
theorem onDone {e : Word → Event} {k : Word → State → StepOutcome} (hk : ∀ v, TraceFree (k v)) :
    TraceFree fun s => s.onDone fun v => k v (s.retire (e v)) := by
  intro h s
  simp only [State.onDone, State.withPast_completion, presentPending_withPast, retire_withPast]
  cases s.completion with
  | none => rfl
  | some v => exact hk v h _

theorem onReadDone {k : Word → State → StepOutcome} (hk : ∀ v, TraceFree (k v)) : TraceFree (·.onReadDone k) :=
  onDone hk

theorem onWriteDone {k : State → StepOutcome} (hk : TraceFree k) : TraceFree (·.onWriteDone k) :=
  onDone fun _ => hk

theorem withKey {k : Word → State → StepOutcome} (hk : ∀ key, TraceFree (k key)) :
    TraceFree fun s => s.withKey fun key => k key s := by
  intro h s
  simp only [State.withKey, State.withPast_keyL]
  cases s.keyL with
  | none => rfl
  | some key => exact hk key h s

theorem withAccess {k : Word → Off → State → StepOutcome} (hk : ∀ key off, TraceFree (k key off)) :
    TraceFree fun s => s.withAccess fun key off => k key off s := by
  refine withKey fun key h s => ?_
  simp only [State.withPast_offL]
  cases s.offL with
  | none => rfl
  | some off => exact hk key off h s

theorem withRaw {k : Word → State → StepOutcome} (hk : ∀ raw, TraceFree (k raw)) :
    TraceFree fun s => s.withRaw fun raw => k raw s := by
  intro h s
  simp only [State.withRaw, State.withPast_rawL]
  cases s.rawL with
  | none => rfl
  | some raw => exact hk raw h s

theorem withBack {k : Word → State → StepOutcome} (hk : ∀ back, TraceFree (k back)) :
    TraceFree fun s => s.withBack fun back => k back s := by
  intro h s
  simp only [State.withBack, State.withPast_backL]
  cases s.backL with
  | none => rfl
  | some back => exact hk back h s

/-! ### The commands

A completion leaves the trace as it is, so both sides of its equation compute to the same state. -/

theorem headerRead {off : Off} {complete : Word → State → StepOutcome} (hc : ∀ v, TraceFree (complete v)) :
    TraceFree (headerRead off complete) := by
  intro h s
  simp only [Machine.headerRead, State.withPast_fsm]
  cases s.fsm with
  | idle => exact acceptRead _ _ h s
  | hdrRd0 => exact onReadDone hc h s
  | _ => rfl

theorem capPointerGate (v : Word) : TraceFree (capPointerGate v) :=
  ite
    (fun h s => withKey (fun key => latchOff_issueNext 0x34#12 (.read key 0x34#12) .hdrRd1) h (s.latchRaw v))
    fun _ _ => rfl

theorem execCfgCapPointer : TraceFree execCfgCapPointer := by
  intro h s
  simp only [Machine.execCfgCapPointer, State.withPast_fsm]
  cases s.fsm with
  | idle => exact acceptRead _ _ h s
  | hdrRd0 => exact onReadDone capPointerGate h s
  | hdrRd1 => exact onReadDone (fun _ _ _ => rfl) h s
  | _ => rfl

theorem barAccept (slot : Nat) : TraceFree (barAccept slot) :=
  ite (fun _ _ => rfl) (acceptRead _ _)

theorem barRawDone (v : Word) : TraceFree (barRawDone v) :=
  ite (fun _ _ => rfl) (ite (fun _ _ => rfl) fun h s => withAccess (fun _ _ => issueNext _ _) h (s.latchRaw v))

theorem barOnesDone : TraceFree barOnesDone := withAccess fun _ _ => issueNext _ _

theorem barBackDone (v : Word) : TraceFree (barBackDone v) := fun h s =>
  withRaw (fun _ => withAccess fun _ _ => issueNext _ _) h (s.latchBack v)

theorem barUpperRead : TraceFree barUpperRead := withAccess fun _ _ => latchOff_issueNext _ _ _

theorem barRestoreDone : TraceFree barRestoreDone :=
  withRaw fun _ => withBack fun _ =>
    ite (fun _ _ => rfl) (ite (fun _ _ => rfl) (ite (fun _ _ => rfl) barUpperRead))

theorem barUpperDone (u : Word) : TraceFree (barUpperDone u) := withRaw fun _ => withBack fun _ _ _ => rfl

theorem execBarProbe (slot : Nat) : TraceFree (execBarProbe slot) := by
  intro h s
  simp only [Machine.execBarProbe, State.withPast_fsm]
  cases s.fsm with
  | idle => exact barAccept slot h s
  | barRawRd => exact onReadDone barRawDone h s
  | barOnesWr => exact onWriteDone barOnesDone h s
  | barBackRd => exact onReadDone barBackDone h s
  | barRestoreWr => exact onWriteDone barRestoreDone h s
  | barUpperRd => exact onReadDone barUpperDone h s
  | hdrRd0 | hdrRd1 => rfl

theorem advance (weight : Word) : TraceFree (advance weight) :=
  ite (fun _ _ => rfl) fun _ _ => rfl

/-- Every command: one without accesses completes from its operands alone. -/
theorem exec (i : Instr) : TraceFree (exec i) := by
  cases i
  case addrEncode | bits32 | bits16 => exact ite (fun _ _ => rfl) fun _ _ => rfl
  case advFunction | advDevice | advBus | advSegment => exact advance _
  case cfgIdentity | cfgStatus | cfgRevClass | cfgHeaderType | cfgMultifunction =>
    exact headerRead fun _ _ _ => rfl
  case cfgEndpoint => exact headerRead fun _ => ite (fun _ _ => rfl) fun _ _ => rfl
  case cfgCapPointer => exact execCfgCapPointer
  case barProbe slot => exact execBarProbe slot
  all_goals exact fun _ _ => rfl

/-! ### The step -/

theorem latchedWork : TraceFree fun s => perform (latchedWork s) := by
  intro h s
  simp only [Machine.latchedWork, State.withPast_cmdL]
  cases s.cmdL with
  | none => rfl
  | some w =>
    dsimp only
    cases decode w with
    | ok i => exact exec i h s
    | error e => rfl

theorem presentedWork : TraceFree fun s => perform (presentedWork s) := by
  simp only [Machine.presentedWork, apply_ite perform]
  refine ite (fun h s => ?_) fun _ _ => rfl
  rw [State.withPast_pins]
  cases decode s.pins.cmd with
  | ok i => exact exec i h s
  | error e => rfl

theorem sampledWork : TraceFree fun s => perform (sampledWork s) := by
  simp only [Machine.sampledWork, apply_ite perform]
  exact ite (fun _ _ => rfl) (ite (fun _ _ => rfl) (ite latchedWork presentedWork))

theorem step : TraceFree step := by
  intro h s
  simp only [Machine.step, nextWork, State.withPast_port, State.withPast_inputs, State.withPast_sample,
    serveRead_withPast]
  split
  · rfl
  · cases s.sample.serveRead with
    | error f => rfl
    | ok u => exact sampledWork h u

end TraceFree

/-- Settles O55: both steps are the step from an empty trace, each with its own past in front. -/
theorem theTraceDoesNotInfluenceTheStep : Obligations.TheTraceDoesNotInfluenceTheStep := by
  intro s t h hstep
  have base : ∀ p, step { s with history := p } = onNext (State.withPast p) (step s.withoutTrace) := fun p =>
    withPast_withoutTrace p s ▸ TraceFree.step p s.withoutTrace
  obtain ⟨u, hu, rfl⟩ := next_of_onNext ((base s.history).symm.trans hstep)
  exact ⟨u.history, rfl, by rw [base h, hu]; rfl⟩

end Sys2Proof.Machine
end

section
/-! PROOFS. The opcode map: OPC alone picks the row of a word, and each row reads back what the encoder writes, so that decoding and
encoding are inverse to each other (R68 to R71, R73). -/

namespace Sys2Proof

/-! ### The rows -/

/-- The row of BITS32. -/
def bits32Row : OpcodeRow := ⟨0x20#32, 0xE0E0FFFF#32, fun w => .bits32 (hiField w) (loField w)⟩

/-- The row of BITS16. -/
def bits16Row : OpcodeRow := ⟨0x21#32, 0xE0E0FFFF#32, fun w => .bits16 (hiField w) (loField w)⟩

/-- The row of BAR_PROBE. -/
def barProbeRow : OpcodeRow := ⟨0x60#32, 0xFFFFF8FF#32, fun w => .barProbe (slotField w)⟩

/-- The row of a plain word and its command. -/
def plainWordRow (p : Word × Instr) : OpcodeRow := plainRow p.1 p.2

theorem opcodeRows_eq : opcodeRows = addressWords.map plainWordRow ++
    (bits32Row :: bits16Row :: (extractorWords ++ statusWords).map plainWordRow) ++ headerWords.map plainWordRow ++
    [barProbeRow] :=
  rfl

theorem mem_opcodeRows {r : OpcodeRow} : r ∈ opcodeRows ↔
    (∃ p ∈ plainWords, plainWordRow p = r) ∨ r = bits32Row ∨ r = bits16Row ∨ r = barProbeRow := by
  simp only [opcodeRows_eq, plainWords, List.mem_append, List.mem_cons, List.mem_map, List.not_mem_nil, or_false,
    or_and_right, exists_or]
  simp only [or_assoc, or_comm, or_left_comm]

/-! ### One row for a word -/

/-- The mask of every row covers OPC, so a word that selects a row has its OPC. -/
theorem OpcodeRow.opc_of_and_mask {r : OpcodeRow} {w : Word} (hr : r ∈ opcodeRows) (h : w &&& r.mask = r.pattern) :
    opcField r.pattern = opcField w := by
  have hm : r.mask.extractLsb' 0 8 = BitVec.allOnes 8 := by
    have h8 := congrArg (BitVec.extractLsb' 0 8) (opcodeRows_opc.2 r hr)
    rw [BitVec.extractLsb'_and] at h8
    exact BitVec.and_allOnes.symm.trans h8
  simp only [opcField, ← h, BitVec.extractLsb'_and, hm, BitVec.and_allOnes]

/-- Settles O5: both rows have the OPC of the word, and the rows differ in OPC. -/
theorem atMostOneRowMatches : Obligations.AtMostOneRowMatches := by
  intro w j k a b ha hb hwa hwb
  have hopc : opcField a.pattern = opcField b.pattern :=
    (OpcodeRow.opc_of_and_mask (List.mem_of_getElem? ha) hwa).trans
      (OpcodeRow.opc_of_and_mask (List.mem_of_getElem? hb) hwb).symm
  obtain ⟨hj, rfl⟩ := List.getElem?_eq_some_iff.mp ha
  obtain ⟨hk, rfl⟩ := List.getElem?_eq_some_iff.mp hb
  have apart := List.pairwise_iff_getElem.mp opcodeRows_opc.1
  rcases lt_trichotomy j k with h | h | h
  · exact absurd hopc (apart j k hj hk h)
  · exact h
  · exact absurd hopc.symm (apart k j hk hj h)

theorem OpcodeRow.selects_iff {r : OpcodeRow} {w : Word} : r.selects w = true ↔ w &&& r.mask = r.pattern :=
  beq_iff_eq

theorem OpcodeRow.eq_of_selects {r r' : OpcodeRow} {w : Word} (hr : r ∈ opcodeRows) (hr' : r' ∈ opcodeRows)
    (h : r.selects w = true) (h' : r'.selects w = true) : r = r' := by
  obtain ⟨j, hj⟩ := List.mem_iff_getElem?.mp hr
  obtain ⟨k, hk⟩ := List.mem_iff_getElem?.mp hr'
  obtain rfl := atMostOneRowMatches w j k r r' hj hk (selects_iff.mp h) (selects_iff.mp h')
  exact Option.some.inj (hj.symm.trans hk)

/-- A word decodes by the row it selects, wherever the row stands in the map. -/
theorem decode_of_selects {r : OpcodeRow} {w : Word} (hr : r ∈ opcodeRows) (h : r.selects w = true) :
    decode w = .ok (r.build w) := by
  cases hd : decode w with
  | ok i =>
    obtain ⟨r', hr', h', rfl⟩ := decode_ok hd
    rw [OpcodeRow.eq_of_selects hr hr' h h']
  | error e => simp [decode_error hd r hr] at h

/-! ### From a command to its word and back -/

open Laws.Encoding in
/-- Every command has its row. -/
theorem encode_selects (i : Instr) : Statement i := by
  cases i
  exacts [addrEncode, addrSegment, addrBus, addrDevice, addrFunction, advFunction, advDevice, advBus, advSegment,
    bits32 _ _, bits16 _ _, fVendorId, fDeviceId, fCommand, fStatus, fRevision, fProgIf, fSubclass, fBaseclass,
    fCacheline, fLatency, fHeaderType, fMultifunction, fBist, fCapPtr, sIntStatus, sCapList, s66mhz, sFastB2b,
    sMasterDpe, sDevsel, sSigTabort, sRcvTabort, sRcvMabort, sSigSerr, sDetPerr, cfgIdentity, cfgStatus, cfgRevClass,
    cfgHeaderType, cfgMultifunction, cfgEndpoint, cfgCapPointer, barProbe _]

/-- Settles O3: the word selects a row that reads the command back, and no other row takes it. -/
theorem decodeOfEncodeIsTheCommand : Obligations.DecodeOfEncodeIsTheCommand := by
  intro i hi
  obtain ⟨r, hr, hs, hb⟩ := encode_selects i hi
  rw [decode_of_selects hr hs, hb]

/-! ### From a word to its command and back -/

/-- A field cut out of a word and put back in its place is the word with every other bit cleared. -/
theorem getLsbD_field_in_place (w : Word) (lo len j : Nat) :
    (BitVec.ofNat 32 (w.extractLsb' lo len).toNat <<< lo).getLsbD j =
      (decide (j < 32) && decide (lo ≤ j) && decide (j < lo + len) && w.getLsbD j) := by
  rw [BitVec.ofNat_toNat, BitVec.getLsbD_shiftLeft, BitVec.getLsbD_setWidth, BitVec.getLsbD_extractLsb']
  by_cases h : lo ≤ j
  · rw [Nat.add_sub_cancel' h]
    grind
  · simp [h]

/-- LO and HI in their places are the bits the masks of BITS32 and BITS16 leave open (R68, R69). -/
theorem rangeFields_in_place (w : Word) :
    BitVec.ofNat 32 (loField w) <<< 16 ||| BitVec.ofNat 32 (hiField w) <<< 24 = w &&& ~~~0xE0E0FFFF#32 := by
  apply BitVec.eq_of_getLsbD_eq
  intro j hj
  rw [BitVec.getLsbD_or, loField, hiField, getLsbD_field_in_place, getLsbD_field_in_place, BitVec.getLsbD_and]
  interval_cases j <;> simp

/-- SLOT in its place is the bits the mask of BAR_PROBE leaves open (R68, R69). -/
theorem slotField_in_place (w : Word) : BitVec.ofNat 32 (slotField w) <<< 8 = w &&& ~~~0xFFFFF8FF#32 := by
  apply BitVec.eq_of_getLsbD_eq
  intro j hj
  rw [slotField, getLsbD_field_in_place, BitVec.getLsbD_and]
  interval_cases j <;> simp

/-- What a row reads from any word is a well-formed command, whose word has the row's pattern where the mask is 1 and the word's own
bits where it is 0. -/
def OpcodeRow.Faithful (r : OpcodeRow) : Prop :=
  ∀ w, (r.build w).wellFormed = true ∧ (r.build w).opc = r.pattern ∧ (r.build w).fieldBits = w &&& ~~~r.mask

theorem plainWords_fields : ∀ p ∈ plainWords, p.2.wellFormed = true ∧ p.2.opc = p.1 ∧ p.2.fieldBits = 0#32 := by
  decide

theorem plainWordRow_faithful {p : Word × Instr} (hp : p ∈ plainWords) : (plainWordRow p).Faithful := fun w => by
  simpa [plainWordRow, plainRow] using plainWords_fields p hp

theorem loField_lt (w : Word) : loField w < 32 := (w.extractLsb' 16 5).isLt

theorem hiField_lt (w : Word) : hiField w < 32 := (w.extractLsb' 24 5).isLt

theorem slotField_lt (w : Word) : slotField w < 8 := (w.extractLsb' 8 3).isLt

theorem bits32Row_faithful : bits32Row.Faithful := fun w =>
  ⟨by simp [bits32Row, Instr.wellFormed, hiField_lt, loField_lt], rfl, rangeFields_in_place w⟩

theorem bits16Row_faithful : bits16Row.Faithful := fun w =>
  ⟨by simp [bits16Row, Instr.wellFormed, hiField_lt, loField_lt], rfl, rangeFields_in_place w⟩

theorem barProbeRow_faithful : barProbeRow.Faithful := fun w =>
  ⟨by simp [barProbeRow, Instr.wellFormed, slotField_lt], rfl, slotField_in_place w⟩

theorem opcodeRows_faithful {r : OpcodeRow} (hr : r ∈ opcodeRows) : r.Faithful := by
  rcases mem_opcodeRows.mp hr with ⟨p, hp, rfl⟩ | rfl | rfl | rfl
  · exact plainWordRow_faithful hp
  · exact bits32Row_faithful
  · exact bits16Row_faithful
  · exact barProbeRow_faithful

/-- Settles O4: the word's bits under the mask are the pattern, and the row reads all the others as fields. -/
theorem decodedWordIsItsEncoding : Obligations.DecodedWordIsItsEncoding := by
  intro w i h
  obtain ⟨r, hr, hs, rfl⟩ := decode_ok h
  obtain ⟨hwf, hopc, hbits⟩ := opcodeRows_faithful hr w
  refine ⟨hwf, ?_⟩
  calc encode (r.build w) = r.pattern ||| (w &&& ~~~r.mask) := by rw [encode, hopc, hbits]
    _ = (w &&& r.mask) ||| (w &&& ~~~r.mask) := by rw [OpcodeRow.selects_iff.mp hs]
    _ = w := by rw [← BitVec.and_or_distrib_left, BitVec.or_not_self, BitVec.and_allOnes]

/-! ### The listed words -/

theorem loField_eq (w : Word) : loField w = w.toNat / 2 ^ 16 % 32 := by
  rw [loField, BitVec.extractLsb'_toNat, Nat.shiftRight_eq_div_pow]

theorem hiField_eq (w : Word) : hiField w = w.toNat / 2 ^ 24 % 32 := by
  rw [hiField, BitVec.extractLsb'_toNat, Nat.shiftRight_eq_div_pow]

theorem slotField_eq (w : Word) : slotField w = w.toNat / 2 ^ 8 % 8 := by
  rw [slotField, BitVec.extractLsb'_toNat, Nat.shiftRight_eq_div_pow]

theorem decode_plainWord {p : Word × Instr} (hp : p ∈ plainWords) : decode p.1 = .ok p.2 :=
  decode_of_selects (mem_opcodeRows.mpr (.inl ⟨p, hp, rfl⟩)) (OpcodeRow.selects_iff.mpr (and_ones p.1))

theorem decode_bits32 {w : Word} (h : w &&& 0xE0E0FFFF#32 = 0x20#32) :
    decode w = .ok (.bits32 (hiField w) (loField w)) :=
  decode_of_selects (mem_opcodeRows.mpr (.inr (.inl rfl))) (OpcodeRow.selects_iff.mpr h)

theorem decode_bits16 {w : Word} (h : w &&& 0xE0E0FFFF#32 = 0x21#32) :
    decode w = .ok (.bits16 (hiField w) (loField w)) :=
  decode_of_selects (mem_opcodeRows.mpr (.inr (.inr (.inl rfl)))) (OpcodeRow.selects_iff.mpr h)

theorem decode_barProbe {w : Word} (h : w &&& 0xFFFFF8FF#32 = 0x60#32) :
    decode w = .ok (.barProbe (slotField w)) :=
  decode_of_selects (mem_opcodeRows.mpr (.inr (.inr (.inr rfl)))) (OpcodeRow.selects_iff.mpr h)

/-- Settles O1: every listed word selects its row, whose reader gives the fields. -/
theorem listedWordsDecodeToTheirCommand : Obligations.ListedWordsDecodeToTheirCommand := by
  refine ⟨fun p => decode_plainWord, fun w => ?_⟩
  rw [← hiField_eq, ← loField_eq, ← slotField_eq]
  exact ⟨decode_bits32, decode_bits16, decode_barProbe⟩

/-- Settles O6: ten closed words, evaluated. -/
theorem sampleWordsDecode : Obligations.SampleWordsDecode := by
  unfold Obligations.SampleWordsDecode
  decide

end Sys2Proof
end

section
/-! PROOFS. The command port: a ready machine takes what it presents, a BUSY one does not look at it. No continuation of a running command
reads the input signals, so from a state with other signals it does the same, faults included, and keeps them (R67, R176). -/

namespace Sys2Proof.Machine

/-! ### A ready machine -/

theorem step_nothing_presented {s : State} {p : Pins} {rest : List Pins} (hs : s.Ready) (hi : s.inputs = p :: rest)
    (hr : p.read = none) (hrst : p.rst = false) (hc : p.cmdValid = false) : step s = .next (s.begun none) := by
  obtain ⟨hf, hb⟩ := hs
  rw [step_eq_sampled hi hr]
  simp [sampledWork, presentedWork, hf, hb, hi, hrst, hc, perform]

/-- Settles O9: the presented command runs on the state with the step's inputs sampled. -/
theorem stepRunsThePresentedCommand : Obligations.StepRunsThePresentedCommand := by
  intro s p rest hs hi hrst hr
  rw [← begun_none hi]
  exact ⟨fun hc i hd => step_presented hs hi hr hrst hc hd, step_nothing_presented hs hi hr hrst⟩

/-! ### Other input signals -/

/-- `s` with the input signals `q` in this step. -/
def State.withPins (q : Pins) (s : State) : State := { s with pins := q }

/-- A part of a step does the same whatever the input signals are. -/
def PinFree (k : State → StepOutcome) : Prop :=
  ∀ q s, k (s.withPins q) = onNext (State.withPins q) (k s)

section
variable (q : Pins) (s : State)

@[simp] theorem State.withPins_fsm : (s.withPins q).fsm = s.fsm := rfl
@[simp] theorem State.withPins_keyL : (s.withPins q).keyL = s.keyL := rfl
@[simp] theorem State.withPins_offL : (s.withPins q).offL = s.offL := rfl
@[simp] theorem State.withPins_rawL : (s.withPins q).rawL = s.rawL := rfl
@[simp] theorem State.withPins_backL : (s.withPins q).backL = s.backL := rfl
@[simp] theorem State.withPins_pins : (s.withPins q).pins = q := rfl

theorem presentPending_withPins : (s.withPins q).presentPending = s.presentPending.withPins q := by
  obtain ⟨he, hn⟩ | ⟨x, hp, hx, he⟩ := presentPending_cases s
  · rcases presentPending_cases (s.withPins q) with ⟨he', -⟩ | ⟨x, hp, hx, -⟩
    · rw [he, he']
    · exact absurd ((hn hp).symm.trans hx) (by simp)
  · rw [he, presentPending_eq_present (s := s.withPins q) hp hx]
    rfl

/-- Of the signals only the collaborator's completion tells whether a transaction completes. -/
theorem completion_withPins {q : Pins} {s : State} (h : q.done = s.pins.done) :
    (s.withPins q).completion = s.completion := by
  simp only [State.completion, State.withPins_pins, h]
  rfl

theorem inContract_withPins (x : Transaction) :
    inContract x (s.withPins q) = onNext (State.withPins q) (inContract x s) := by
  unfold inContract
  split <;> rfl

theorem readRegister_withPins (r : HostReg) : (s.withPins q).readRegister r = s.readRegister r := by
  cases r <;> rfl

theorem serveRead_withPins {q : Pins} {s : State} (h : q.read = s.pins.read) :
    (s.withPins q).serveRead = s.serveRead.map (State.withPins q) := by
  unfold State.serveRead
  rw [State.withPins_pins, h]
  cases s.pins.read with
  | none => rfl
  | some r =>
    simp only [readRegister_withPins]
    cases s.readRegister r <;> rfl

end

namespace PinFree

/-! ### The operations of a continuation -/

/-- A choice whose condition does not read the state. -/
theorem ite {c : Prop} {_ : Decidable c} {k k' : State → StepOutcome} (hk : PinFree k) (hk' : PinFree k') :
    PinFree fun s => if c then k s else k' s := by
  by_cases h : c
  · simpa [h] using hk
  · simpa [h] using hk'

theorem issueNext (x : Transaction) (f : Fsm) : PinFree (·.issueNext x f) :=
  fun q s => inContract_withPins q (s.prepare x f) x

theorem latchOff_issueNext (off : Off) (x : Transaction) (f : Fsm) : PinFree fun s => (s.latchOff off).issueNext x f :=
  fun q s => issueNext x f q (s.latchOff off)

theorem withKey {k : Word → State → StepOutcome} (hk : ∀ key, PinFree (k key)) :
    PinFree fun s => s.withKey fun key => k key s := by
  intro q s
  simp only [State.withKey, State.withPins_keyL]
  cases s.keyL with
  | none => rfl
  | some key => exact hk key q s

theorem withAccess {k : Word → Off → State → StepOutcome} (hk : ∀ key off, PinFree (k key off)) :
    PinFree fun s => s.withAccess fun key off => k key off s := by
  refine withKey fun key q s => ?_
  simp only [State.withPins_offL]
  cases s.offL with
  | none => rfl
  | some off => exact hk key off q s

theorem withRaw {k : Word → State → StepOutcome} (hk : ∀ raw, PinFree (k raw)) :
    PinFree fun s => s.withRaw fun raw => k raw s := by
  intro q s
  simp only [State.withRaw, State.withPins_rawL]
  cases s.rawL with
  | none => rfl
  | some raw => exact hk raw q s

theorem withBack {k : Word → State → StepOutcome} (hk : ∀ back, PinFree (k back)) :
    PinFree fun s => s.withBack fun back => k back s := by
  intro q s
  simp only [State.withBack, State.withPins_backL]
  cases s.backL with
  | none => rfl
  | some back => exact hk back q s

/-! ### The continuations

A completion leaves the input signals as they are, so both sides of its equation compute to the same state. -/

theorem capPointerGate (v : Word) : PinFree (capPointerGate v) :=
  ite (fun q s => withKey (fun key => latchOff_issueNext 0x34#12 (.read key 0x34#12) .hdrRd1) q (s.latchRaw v))
    fun _ _ => rfl

theorem barRawDone (v : Word) : PinFree (barRawDone v) :=
  ite (fun _ _ => rfl) (ite (fun _ _ => rfl) fun q s => withAccess (fun _ _ => issueNext _ _) q (s.latchRaw v))

theorem barOnesDone : PinFree barOnesDone := withAccess fun _ _ => issueNext _ _

theorem barBackDone (v : Word) : PinFree (barBackDone v) := fun q s =>
  withRaw (fun _ => withAccess fun _ _ => issueNext _ _) q (s.latchBack v)

theorem barUpperRead : PinFree barUpperRead := withAccess fun _ _ => latchOff_issueNext _ _ _

theorem barRestoreDone : PinFree barRestoreDone :=
  withRaw fun _ => withBack fun _ =>
    ite (fun _ _ => rfl) (ite (fun _ _ => rfl) (ite (fun _ _ => rfl) barUpperRead))

theorem barUpperDone (u : Word) : PinFree (barUpperDone u) := withRaw fun _ => withBack fun _ _ _ => rfl

end PinFree

/-! ### A running command -/

section
variable {q : Pins} {s : State}

theorem onDone_withPins {e : Word → Event} {k : Word → State → StepOutcome} (hk : ∀ v, PinFree (k v))
    (hd : q.done = s.pins.done) :
    ((s.withPins q).onDone fun v => k v ((s.withPins q).retire (e v))) =
      onNext (State.withPins q) (s.onDone fun v => k v (s.retire (e v))) := by
  have hd' := completion_withPins hd
  cases hc : s.completion with
  | none => rw [onDone_none hc, onDone_none (hd'.trans hc), presentPending_withPins]; rfl
  | some v => rw [onDone_some hc, onDone_some (hd'.trans hc)]; exact hk v q (s.retire (e v))

theorem onReadDone_withPins {k : Word → State → StepOutcome} (hk : ∀ v, PinFree (k v)) (hd : q.done = s.pins.done) :
    (s.withPins q).onReadDone k = onNext (State.withPins q) (s.onReadDone k) :=
  onDone_withPins hk hd

theorem onWriteDone_withPins {k : State → StepOutcome} (hk : PinFree k) (hd : q.done = s.pins.done) :
    (s.withPins q).onWriteDone k = onNext (State.withPins q) (s.onWriteDone k) :=
  onDone_withPins (fun _ => hk) hd

theorem headerRead_withPins {off : Off} {complete : Word → State → StepOutcome} (hf : s.fsm ≠ .idle)
    (hd : q.done = s.pins.done) (hc : ∀ v, PinFree (complete v)) :
    headerRead off complete (s.withPins q) = onNext (State.withPins q) (headerRead off complete s) := by
  simp only [headerRead, State.withPins_fsm]
  cases h : s.fsm with
  | idle => exact absurd h hf
  | hdrRd0 => exact onReadDone_withPins hc hd
  | _ => rfl

theorem execCfgCapPointer_withPins (hf : s.fsm ≠ .idle) (hd : q.done = s.pins.done) :
    execCfgCapPointer (s.withPins q) = onNext (State.withPins q) (execCfgCapPointer s) := by
  simp only [execCfgCapPointer, State.withPins_fsm]
  cases h : s.fsm with
  | idle => exact absurd h hf
  | hdrRd0 => exact onReadDone_withPins PinFree.capPointerGate hd
  | hdrRd1 => exact onReadDone_withPins (fun _ _ _ => rfl) hd
  | _ => rfl

theorem execBarProbe_withPins (slot : Nat) (hf : s.fsm ≠ .idle) (hd : q.done = s.pins.done) :
    execBarProbe slot (s.withPins q) = onNext (State.withPins q) (execBarProbe slot s) := by
  simp only [execBarProbe, State.withPins_fsm]
  cases h : s.fsm with
  | idle => exact absurd h hf
  | barRawRd => exact onReadDone_withPins PinFree.barRawDone hd
  | barOnesWr => exact onWriteDone_withPins PinFree.barOnesDone hd
  | barBackRd => exact onReadDone_withPins PinFree.barBackDone hd
  | barRestoreWr => exact onWriteDone_withPins PinFree.barRestoreDone hd
  | barUpperRd => exact onReadDone_withPins PinFree.barUpperDone hd
  | hdrRd0 | hdrRd1 => rfl

/-- A running command reads no signal but the collaborator's completion; its operands were latched at acceptance (R24, R124). -/
theorem exec_withPins {i : Instr} (ha : accesses i = true) (hf : s.fsm ≠ .idle) (hd : q.done = s.pins.done) :
    exec i (s.withPins q) = onNext (State.withPins q) (exec i s) := by
  cases i
  case cfgIdentity | cfgStatus | cfgRevClass | cfgHeaderType | cfgMultifunction =>
    exact headerRead_withPins hf hd fun _ _ _ => rfl
  case cfgEndpoint => exact headerRead_withPins hf hd fun _ => PinFree.ite (fun _ _ => rfl) fun _ _ => rfl
  case cfgCapPointer => exact execCfgCapPointer_withPins hf hd
  case barProbe slot => exact execBarProbe_withPins slot hf hd
  all_goals cases ha

theorem sampledWork_latched {w : Word} {i : Instr} (hr : s.pins.rst = false) (hb : s.busy = true) (hf : s.fsm ≠ .idle)
    (hw : s.cmdL = some w) (hd : decode w = .ok i) : sampledWork s = .runs i s := by
  have hf' : (s.fsm != Fsm.idle) = true := by simpa using hf
  simp [sampledWork, latchedWork, hr, hb, hf', hw, hd]

theorem sampledWork_withPins (hs : s.Inv) (hb : s.busy = true) (hrst : q.rst = s.pins.rst) (hd : q.done = s.pins.done) :
    perform (sampledWork (s.withPins q)) = onNext (State.withPins q) (perform (sampledWork s)) := by
  have hf := hs.busy.mp hb
  obtain ⟨w, i, hw, hdec, ha⟩ := hs.sequenced.latched hf
  cases hr : s.pins.rst with
  | true => simp only [sampledWork, State.withPins_pins, hrst, hr, if_true]; rfl
  | false =>
    rw [sampledWork_latched hr hb hf hw hdec,
      sampledWork_latched (s := s.withPins q) (hrst.trans hr) hb hf hw hdec]
    exact exec_withPins ha hf hd

end

/-- Settles O11: the host's read is served as before, and the running command looks at the completion alone. -/
theorem busyIgnoresTheCommandPort : Obligations.BusyIgnoresTheCommandPort := by
  intro s p q rest hs hb hi hrst hd hr
  have hq : State.sample { s with inputs := q :: rest } = s.sample.withPins q := by
    simp [State.sample, State.withPins, hi]
  have hserve : (s.sample.withPins q).serveRead = s.sample.serveRead.map (State.withPins q) :=
    serveRead_withPins (by simp [hi, hr])
  change _ = onNext (State.withPins q) (step s)
  simp only [step, nextWork, hq, hserve]
  cases hok : s.sample.serveRead with
  | error f => simp [hi, Except.map, perform, onNext]
  | ok u =>
    obtain ⟨d, rfl⟩ := serveRead_ok hok
    simpa [hi, Except.map] using
      sampledWork_withPins (begun_inv hs d) hb (by simpa [hi] using hrst) (by simpa [hi] using hd)

end Sys2Proof.Machine
end

section
/-! PROOFS. The address unit: what each of its commands answers, said once, and the laws of the key (R80 to R92). -/

namespace Sys2Proof.Machine

/-! ### Words and their bits -/

theorem decode_of_mem_plainWords {w : Word} {i : Instr} (h : (w, i) ∈ plainWords) : decode w = .ok i :=
  decode_plainWord h

/-- The mask of the low `len` bits leaves those bits, zero-extended. -/
theorem and_lowMask {n len : Nat} (hn : n + 1 = 2 ^ len) (w : Word) :
    w &&& BitVec.ofNat 32 n = (w.extractLsb' 0 len).setWidth 32 := by
  obtain rfl : n = 2 ^ len - 1 := by omega
  apply BitVec.eq_of_getLsbD_eq
  intro j hj
  rw [BitVec.getLsbD_and, BitVec.getLsbD_ofNat, Nat.testBit_two_pow_sub_one]
  simp [hj, Bool.and_comm]

theorem ushiftRight_and_lowMask {n len : Nat} (hn : n + 1 = 2 ^ len) (w : Word) (lo : Nat) :
    (w >>> lo) &&& BitVec.ofNat 32 n = (w.extractLsb' lo len).setWidth 32 := by
  rw [and_lowMask hn]
  apply BitVec.eq_of_getLsbD_eq
  intro j hj
  simp

theorem field_toNat {n : Nat} (v : BitVec n) (hi lo : Nat) :
    (field v hi lo).toNat = v.toNat / 2 ^ lo % 2 ^ (hi + 1 - lo) % 2 ^ 32 := by
  rw [field, BitVec.toNat_setWidth, BitVec.extractLsb'_toNat, Nat.shiftRight_eq_div_pow]

/-! ### The key -/

theorem packKey_eq_or (g : BitVec 16) (b : BitVec 8) (d : BitVec 5) (f : BitVec 3) :
    packKey g b d f =
      g.setWidth 32 <<< 16 ||| b.setWidth 32 <<< 8 ||| d.setWidth 32 <<< 3 ||| f.setWidth 32 := by
  apply BitVec.eq_of_getLsbD_eq
  intro j hj
  simp only [packKey_getLsbD, BitVec.getLsbD_or, BitVec.getLsbD_shiftLeft, BitVec.getLsbD_setWidth]
  grind

/-- The fields of a packed key are the digits of its value. -/
theorem packKey_extractLsb' (g : BitVec 16) (b : BitVec 8) (d : BitVec 5) (f : BitVec 3) :
    (packKey g b d f).extractLsb' 16 16 = g ∧ (packKey g b d f).extractLsb' 8 8 = b ∧
      (packKey g b d f).extractLsb' 3 5 = d ∧ (packKey g b d f).extractLsb' 0 3 = f := by
  simp only [← BitVec.toNat_inj, BitVec.extractLsb'_toNat, packKey_toNat, Nat.shiftRight_eq_div_pow]
  omega

theorem packKey_of_extractLsb' (k : Word) :
    packKey (k.extractLsb' 16 16) (k.extractLsb' 8 8) (k.extractLsb' 3 5) (k.extractLsb' 0 3) = k := by
  apply BitVec.eq_of_toNat_eq
  simp only [packKey_toNat, BitVec.extractLsb'_toNat, Nat.shiftRight_eq_div_pow]
  omega

/-- Settles O21: the fields are the digits of the key, the segment first, and each is below the weight of the one before it. -/
theorem keyOrderIsLexicographic : Obligations.KeyOrderIsLexicographic := by
  intro g g' b b' d d' f f'
  simp only [packKey_toNat, ← BitVec.toNat_inj]
  omega

/-! ### The accessors -/

theorem addrSegment_completes (s : State) :
    CompletesAtOnce .addrSegment s 1#2 0#4 { val0 := some ((s.pins.opa.extractLsb' 16 16).setWidth 32) } :=
  completesAtOnce_of (o := .ok) rfl

theorem addrBus_completes (s : State) :
    CompletesAtOnce .addrBus s 1#2 0#4 { val0 := some ((s.pins.opa.extractLsb' 8 8).setWidth 32) } :=
  completesAtOnce_of (o := .ok) rfl

theorem addrDevice_completes (s : State) :
    CompletesAtOnce .addrDevice s 1#2 0#4 { val0 := some ((s.pins.opa.extractLsb' 3 5).setWidth 32) } :=
  completesAtOnce_of (o := .ok) rfl

theorem addrFunction_completes (s : State) :
    CompletesAtOnce .addrFunction s 1#2 0#4 { val0 := some ((s.pins.opa.extractLsb' 0 3).setWidth 32) } :=
  completesAtOnce_of (o := .ok) rfl

/-- Settles O19: each accessor answers the bits of its field in R80's layout. -/
theorem accessorsExtractTheFieldsOfAKey : Obligations.AccessorsExtractTheFieldsOfAKey :=
  ⟨decode_of_mem_plainWords (by decide), decode_of_mem_plainWords (by decide), decode_of_mem_plainWords (by decide),
    decode_of_mem_plainWords (by decide), fun s =>
      ⟨addrSegment_completes s, addrBus_completes s, addrDevice_completes s, addrFunction_completes s⟩⟩

/-! ### ADDR_ENCODE -/

/-- The operands of ADDR_ENCODE are in the ranges of R83. -/
def EncodeInRange (a b : Word) : Prop :=
  a.toNat < 2 ^ 16 ∧ b.toNat < 2 ^ 24 ∧ b.toNat / 2 ^ 8 % 256 ≤ 31 ∧ b.toNat / 2 ^ 16 % 256 ≤ 7

/-- The guard of R83's pseudocode. -/
theorem not_encodeInRange_iff (a b : Word) :
    ¬ EncodeInRange a b ↔ field a 31 16 ≠ 0#32 ∨ field b 31 24 ≠ 0#32 ∨ 31 < (b.extractLsb' 8 8).toNat ∨
      7 < (b.extractLsb' 16 8).toNat := by
  simp only [EncodeInRange, ne_eq, ← BitVec.toNat_inj, field_toNat, BitVec.extractLsb'_toNat,
    Nat.shiftRight_eq_div_pow, BitVec.toNat_ofNat]
  omega

/-- Operands that hold four fields in their places are packed into the key of those fields. -/
theorem exec_addrEncode_fields {s : State} {g : BitVec 16} {b : BitVec 8} {d : BitVec 5} {f : BitVec 3}
    (ha : s.pins.opa.toNat = g.toNat)
    (hb : s.pins.opb.toNat = b.toNat + d.toNat * 2 ^ 8 + f.toNat * 2 ^ 16) :
    exec .addrEncode s = .next (s.finish .ok 0#4 { val0 := some (packKey g b d f) }) := by
  have hr : EncodeInRange s.pins.opa s.pins.opb := by
    unfold EncodeInRange
    omega
  have hfields : s.pins.opa.extractLsb' 0 16 = g ∧ s.pins.opb.extractLsb' 0 8 = b ∧
      (s.pins.opb.extractLsb' 8 8).extractLsb' 0 5 = d ∧ (s.pins.opb.extractLsb' 16 8).extractLsb' 0 3 = f := by
    simp only [← BitVec.toNat_inj, BitVec.extractLsb'_toNat, ha, hb, Nat.shiftRight_eq_div_pow]
    omega
  obtain ⟨rfl, rfl, rfl, rfl⟩ := hfields
  exact if_neg fun hg => (not_encodeInRange_iff _ _).mpr hg hr

theorem exec_addrEncode_of_not_inRange {s : State} (h : ¬ EncodeInRange s.pins.opa s.pins.opb) :
    exec .addrEncode s = .next (s.finish .error 4#4 {}) :=
  if_pos ((not_encodeInRange_iff _ _).mp h)

/-- Settles O18: the two branches of R83's guard, with the key as R83's formula writes it. -/
theorem addrEncodePacksOrReportsFieldRange : Obligations.AddrEncodePacksOrReportsFieldRange := by
  refine ⟨decode_of_mem_plainWords (by decide), fun s => ⟨fun h => ?_, fun h => ?_⟩⟩
  · obtain ⟨ha, hb, hd, hf⟩ := h
    rw [and_lowMask (len := 16) rfl, and_lowMask (len := 8) rfl, ushiftRight_and_lowMask (len := 5) rfl,
      ushiftRight_and_lowMask (len := 3) rfl, ← packKey_eq_or]
    refine completesAtOnce_of (o := .ok) (exec_addrEncode_fields ?_ ?_)
    · rw [BitVec.extractLsb'_toNat, Nat.shiftRight_eq_div_pow]
      omega
    · simp only [BitVec.extractLsb'_toNat, Nat.shiftRight_eq_div_pow]
      omega
  · exact completesAtOnce_of (o := .error) (exec_addrEncode_of_not_inRange h)

/-- The second operand of ADDR_ENCODE holds a field in each of its three low bytes; cut at a key's places, it is a key itself. -/
theorem encodeOperand_toNat (b : BitVec 8) (d : BitVec 5) (f : BitVec 3) :
    (b.setWidth 32 ||| d.setWidth 32 <<< 8 ||| f.setWidth 32 <<< 16).toNat =
      b.toNat + d.toNat * 2 ^ 8 + f.toNat * 2 ^ 16 := by
  have h : b.setWidth 32 ||| d.setWidth 32 <<< 8 ||| f.setWidth 32 <<< 16 =
      packKey (f.setWidth 16) (d.setWidth 8) (b.extractLsb' 3 5) (b.extractLsb' 0 3) := by
    apply BitVec.eq_of_getLsbD_eq
    intro j hj
    simp only [packKey_getLsbD, BitVec.getLsbD_or, BitVec.getLsbD_shiftLeft, BitVec.getLsbD_setWidth,
      BitVec.getLsbD_extractLsb']
    grind
  simp only [h, packKey_toNat, BitVec.extractLsb'_toNat, BitVec.toNat_setWidth, Nat.shiftRight_eq_div_pow]
  omega

/-- Settles O20: ADDR_ENCODE answers `packKey`, whose fields the accessors read; a key's own fields pack to it. -/
theorem keysRoundTrip : Obligations.KeysRoundTrip := by
  constructor
  · intro s g b d f ha hb
    have ha' : s.pins.opa.toNat = g.toNat := by rw [ha, BitVec.toNat_setWidth_of_le (by decide)]
    refine ⟨_, _, exec_addrEncode_fields ha' (hb ▸ encodeOperand_toNat b d f), rfl, fun u hu => ?_⟩
    obtain ⟨hg, hb, hd, hf⟩ := hu ▸ packKey_extractLsb' g b d f
    exact ⟨hg ▸ addrSegment_completes u, hb ▸ addrBus_completes u, hd ▸ addrDevice_completes u,
      hf ▸ addrFunction_completes u⟩
  · intro s k ha hb
    have ha' : s.pins.opa.toNat = (k.extractLsb' 16 16).toNat := by
      rw [ha, BitVec.toNat_ushiftRight, BitVec.extractLsb'_toNat, Nat.shiftRight_eq_div_pow]
      omega
    rw [ushiftRight_and_lowMask (len := 8) rfl, ushiftRight_and_lowMask (len := 5) rfl, and_lowMask (len := 3) rfl] at hb
    have h := exec_addrEncode_fields ha' (hb ▸ encodeOperand_toNat _ _ _)
    rw [packKey_of_extractLsb'] at h
    exact completesAtOnce_of (o := .ok) h

/-! ### The advance commands -/

/-- Clearing the bits below a weight of `2 ^ len`. -/
theorem and_not_lowMask {n len : Nat} (hn : n + 1 = 2 ^ len) (w : Word) :
    w &&& ~~~BitVec.ofNat 32 n = w >>> len <<< len := by
  obtain rfl : n = 2 ^ len - 1 := by omega
  apply BitVec.eq_of_getLsbD_eq
  intro j hj
  rw [BitVec.getLsbD_and, BitVec.getLsbD_not, BitVec.getLsbD_ofNat, Nat.testBit_two_pow_sub_one,
    BitVec.getLsbD_shiftLeft, BitVec.getLsbD_ushiftRight]
  by_cases h : j < len
  · simp [h]
  · simp [hj, h, Nat.add_sub_cancel' (Nat.le_of_not_lt h), Bool.and_comm]

/-- `sum[32]` of R88. -/
theorem getLsbD_sum (a w : Word) :
    (a.setWidth 33 + w.setWidth 33).getLsbD 32 = decide (2 ^ 32 ≤ a.toNat + w.toNat) := by
  have ha := a.isLt
  have hw := w.isLt
  rw [← BitVec.msb_eq_getLsbD_last, BitVec.msb_eq_decide, BitVec.toNat_add, BitVec.toNat_setWidth_of_le (by decide),
    BitVec.toNat_setWidth_of_le (by decide), Nat.mod_eq_of_lt (by omega)]

/-- `sum[31:0]` of R88. -/
theorem extractLsb'_sum (a w : Word) : (a.setWidth 33 + w.setWidth 33).extractLsb' 0 32 = a + w := by
  rw [← BitVec.setWidth_eq_extractLsb' (by decide), BitVec.setWidth_add _ _ (by decide)]
  simp

theorem advance_of_lt {weight : Word} {s : State} (h : s.pins.opa.toNat + weight.toNat < 2 ^ 32) :
    advance weight s =
      .next (s.finish .ok 0#4 { val0 := some ((s.pins.opa + weight) &&& ~~~(weight - 1#32)) }) := by
  rw [← extractLsb'_sum]
  refine if_neg ?_
  rw [getLsbD_sum, decide_eq_true_eq]
  exact Nat.not_le_of_lt h

theorem advance_of_ge {weight : Word} {s : State} (h : 2 ^ 32 ≤ s.pins.opa.toNat + weight.toNat) :
    advance weight s = .next (s.finish .error 1#4 {}) :=
  if_pos ((getLsbD_sum _ _).trans (decide_eq_true h))

section
variable {i : Instr} {s : State} {weight : Word}

theorem advance_completes (hi : exec i s = advance weight s) {m : Word} (hm : ~~~(weight - 1#32) = m)
    (h : s.pins.opa.toNat + weight.toNat < 2 ^ 32) :
    CompletesAtOnce i s 1#2 0#4 { val0 := some ((s.pins.opa + weight) &&& m) } :=
  hm ▸ completesAtOnce_of (o := .ok) (hi.trans (advance_of_lt h))

theorem advance_reports (hi : exec i s = advance weight s) (h : 2 ^ 32 ≤ s.pins.opa.toNat + weight.toNat) :
    CompletesAtOnce i s 3#2 1#4 {} :=
  completesAtOnce_of (o := .error) (hi.trans (advance_of_ge h))

end

/-- Settles O22: the sum leaves 32 bits exactly from `2 ^ 32` less the weight on. -/
theorem advanceCommandsCarryOrReportExhaustion : Obligations.AdvanceCommandsCarryOrReportExhaustion := by
  refine ⟨decode_of_mem_plainWords (by decide), decode_of_mem_plainWords (by decide),
    decode_of_mem_plainWords (by decide), decode_of_mem_plainWords (by decide), fun s => ⟨fun h => ?nextFunction, ?_⟩⟩
  case nextFunction =>
    rw [← BitVec.and_allOnes (x := s.pins.opa + 1#32)]
    exact advance_completes rfl (by decide) (by bv_omega)
  exact ⟨fun h => advance_reports rfl (by bv_omega),
    fun h => advance_completes rfl (by decide) (by bv_omega), fun h => advance_reports rfl (by bv_omega),
    fun h => advance_completes rfl (by decide) (by bv_omega), fun h => advance_reports rfl (by bv_omega),
    fun h => advance_completes rfl (by decide) (by bv_omega), fun h => advance_reports rfl (by bv_omega)⟩

/-- R88's weights are powers of two, and each command is `advance` by its weight. -/
theorem exec_of_mem_advanceWeights {i : Instr} {w : Nat} (h : (i, w) ∈ advanceWeights) :
    ∃ len < 32, w = 2 ^ len ∧ ∀ s, exec i s = advance (BitVec.ofNat 32 (2 ^ len)) s := by
  simp only [advanceWeights, List.mem_cons, Prod.mk.injEq, List.not_mem_nil, or_false] at h
  obtain ⟨rfl, rfl⟩ | ⟨rfl, rfl⟩ | ⟨rfl, rfl⟩ | ⟨rfl, rfl⟩ := h
  · exact ⟨0, by decide, rfl, fun _ => rfl⟩
  · exact ⟨3, by decide, rfl, fun _ => rfl⟩
  · exact ⟨8, by decide, rfl, fun _ => rfl⟩
  · exact ⟨16, by decide, rfl, fun _ => rfl⟩

/-- An advance below the top answers the greatest multiple of the weight that is no greater than the sum (R88). -/
theorem advanced_toNat {a : Word} {len : Nat} (h : a.toNat + 2 ^ len < 2 ^ 32) :
    ((a + BitVec.ofNat 32 (2 ^ len)) &&& ~~~(BitVec.ofNat 32 (2 ^ len) - 1#32)).toNat =
      (a.toNat + 2 ^ len) / 2 ^ len * 2 ^ len := by
  have hpos : 0 < 2 ^ len := Nat.two_pow_pos len
  have hm : BitVec.ofNat 32 (2 ^ len) - 1#32 = BitVec.ofNat 32 (2 ^ len - 1) :=
    BitVec.ofNat_sub_ofNat_of_le (2 ^ len) 1 (by decide) hpos
  have hs : (a + BitVec.ofNat 32 (2 ^ len)).toNat = a.toNat + 2 ^ len := by
    rw [BitVec.toNat_add, BitVec.toNat_ofNat]
    omega
  rw [hm, and_not_lowMask (len := len) (by omega), BitVec.toNat_shiftLeft, BitVec.toNat_ushiftRight, hs,
    Nat.shiftRight_eq_div_pow, Nat.shiftLeft_eq]
  exact Nat.mod_eq_of_lt (Nat.lt_of_le_of_lt (Nat.div_mul_le_self _ _) h)

/-- Settles O23: a multiple of the weight that is above the operand is more than the sum less the weight, so no multiple up to the
sum is greater, neither the answer nor, when the sum leaves 32 bits, `2 ^ 32`. -/
theorem advanceGivesTheStartOfTheNextUnit : Obligations.AdvanceGivesTheStartOfTheNextUnit := by
  intro s i w hw
  obtain ⟨len, hlen, rfl, he⟩ := exec_of_mem_advanceWeights hw
  have hpow : (BitVec.ofNat 32 (2 ^ len)).toNat = 2 ^ len := Nat.mod_eq_of_lt (Nat.pow_lt_pow_right (by decide) hlen)
  by_cases h : s.pins.opa.toNat + 2 ^ len < 2 ^ 32
  · refine ⟨_, (he s).trans (advance_of_lt (by rwa [hpow])), .inl ⟨_, rfl, rfl, ?_⟩⟩
    rw [advanced_toNat h]
    have hle := Nat.div_mul_le_self (s.pins.opa.toNat + 2 ^ len) (2 ^ len)
    have hlt := Nat.lt_div_mul_add (a := s.pins.opa.toNat + 2 ^ len) (Nat.two_pow_pos len)
    exact ⟨by omega, Nat.dvd_mul_left _ _, fun m hm ha => Nat.le_of_lt_add_of_dvd (by omega) (Nat.dvd_mul_left _ _) hm⟩
  · refine ⟨_, (he s).trans (advance_of_ge (by rw [hpow]; omega)), .inr ⟨rfl, rfl, rfl, fun m hm ha => ?_⟩⟩
    exact Nat.le_of_lt_add_of_dvd (by omega) (Nat.pow_dvd_pow 2 hlen.le) hm

end Sys2Proof.Machine
end

section
/-! PROOFS. The field extractor: which bits of the operand each of its commands answers, said once for a range, a field and a status
bit (R94 to R123). -/

namespace Sys2Proof.Machine

/-! ### Fields -/

/-- A field depends on its own bits alone. -/
theorem field_congr {m n : Nat} {v : BitVec m} {w : BitVec n} {hi lo : Nat}
    (h : ∀ b ≤ hi, lo ≤ b → v.getLsbD b = w.getLsbD b) : field v hi lo = field w hi lo := by
  apply BitVec.eq_of_getLsbD_eq
  intro j hj
  rw [field_getLsbD, field_getLsbD]
  by_cases hr : j < hi + 1 - lo
  · rw [h (lo + j) (by omega) (by omega)]
  · simp [hr]

theorem field_low16 {hi : Nat} (h : hi < 16) (lo : Nat) (a : Word) : field (low16 a) hi lo = field a hi lo :=
  field_congr fun _ hb _ => low16_getLsbD a (by omega)

/-- The bits of a nonempty field that lies within the word, which zero extension to 32 bits keeps whole (R10). -/
theorem field_getLsbD_of_le {hi lo : Nat} (hhi : hi < 32) (h : lo ≤ hi) (v : Word) (j : Nat) :
    (field v hi lo).getLsbD j = (decide (j ≤ hi - lo) && v.getLsbD (lo + j)) := by
  have hj : (j < 32 ∧ j < hi + 1 - lo) ↔ j ≤ hi - lo := by omega
  rw [field_getLsbD, ← Bool.decide_and, decide_eq_decide.mpr hj]

/-! ### The range commands -/

/-- The five-bit fields HI and LO of a command word (R68), read by shift and mask. -/
theorem rangeField_toNat (w : Word) (lo : Nat) : ((w >>> lo) &&& 0x1F#32).toNat = (w.extractLsb' lo 5).toNat := by
  rw [ushiftRight_and_lowMask (len := 5) rfl, BitVec.toNat_setWidth_of_le (by decide)]

section
variable {s : State} {hi lo : Nat}

theorem exec_bits32_of_le (h : lo ≤ hi) :
    exec (.bits32 hi lo) s = .next (s.finish .ok 0#4 { val0 := some (field s.pins.opa hi lo) }) :=
  if_neg (Nat.not_lt.mpr h)

theorem exec_bits32_of_lt (h : hi < lo) : exec (.bits32 hi lo) s = .next (s.finish .error 6#4 {}) :=
  if_pos h

theorem exec_bits16_of_le (h : lo ≤ hi) (h15 : hi ≤ 15) :
    exec (.bits16 hi lo) s = .next (s.finish .ok 0#4 { val0 := some (field s.pins.opa hi lo) }) := by
  rw [← field_low16 (Nat.lt_succ_of_le h15)]
  exact if_neg (by omega)

theorem exec_bits16_of_invalid (h : 15 < hi ∨ hi < lo) :
    exec (.bits16 hi lo) s = .next (s.finish .error 6#4 {}) :=
  if_pos h

end

/-- Settles O24: the two branches of R95's guard, with the bits of the field. -/
theorem bits32ExtractsItsRange : Obligations.Bits32ExtractsItsRange := by
  refine ⟨fun w hw => ?_, fun s hi lo hhi _ => ⟨fun h => ?_, fun h => ⟨_, ?_, field_getLsbD_of_le hhi h _⟩⟩⟩
  · rw [rangeField_toNat, rangeField_toNat]
    exact decode_bits32 hw
  · exact completesAtOnce_of (o := .error) (exec_bits32_of_lt h)
  · exact completesAtOnce_of (o := .ok) (exec_bits32_of_le h)

/-- Settles O25: the two branches of R96's guard; a range within bits 15:0 of the operand is a range of `opa[15:0]`. -/
theorem bits16ExtractsItsRange : Obligations.Bits16ExtractsItsRange := by
  refine ⟨fun w hw => ?_, fun s hi lo hhi _ => ⟨fun h => ?_, fun h h15 => ⟨_, ?_, field_getLsbD_of_le hhi h _⟩⟩⟩
  · rw [rangeField_toNat, rangeField_toNat]
    exact decode_bits16 hw
  · exact completesAtOnce_of (o := .error) (exec_bits16_of_invalid h)
  · exact completesAtOnce_of (o := .ok) (exec_bits16_of_le h h15)

/-! ### The named extractors -/

section
variable {i : Instr} {s : State}

theorem extractField_completes (hi lo : Nat) (h : exec i s = extractField hi lo s) :
    CompletesAtOnce i s 1#2 0#4 { val0 := some (field s.pins.opa hi lo) } :=
  completesAtOnce_of (o := .ok) h

theorem extractFlag_completes (b : Nat) (h : exec i s = extractField b b s) :
    CompletesAtOnce i s 1#2 0#4 { val0 := some (if s.pins.opa.getLsbD b then 1#32 else 0#32) } :=
  flag_eq s.pins.opa b ▸ extractField_completes b b h

end

/-- Settles O26: each command is `extractField` at its place of R37. -/
theorem headerFieldExtractorsGiveTheirField : Obligations.HeaderFieldExtractorsGiveTheirField := by
  unfold Obligations.HeaderFieldExtractorsGiveTheirField
  iterate 10 refine ⟨decode_of_mem_plainWords (by decide), ?_⟩
  intro s
  exact ⟨extractField_completes 15 0 rfl, extractField_completes 31 16 rfl, extractField_completes 15 0 rfl,
    extractField_completes 31 16 rfl, extractField_completes 7 0 rfl, extractField_completes 15 8 rfl,
    extractField_completes 23 16 rfl, extractField_completes 31 24 rfl, extractField_completes 7 0 rfl,
    extractField_completes 15 8 rfl⟩

theorem fHeaderType_completes (s : State) : CompletesAtOnce .fHeaderType s 1#2 0#4
    { val0 := some (field s.pins.opa 22 16), val1 := some (headerKind (field s.pins.opa 22 16)) } :=
  completesAtOnce_of (o := .ok) rfl

/-- Settles O27: the header type comes with the kind of its seven bits; the others are `extractField` at their places of R37. -/
theorem headerTypeAndByteExtractorsGiveTheirField : Obligations.HeaderTypeAndByteExtractorsGiveTheirField := by
  unfold Obligations.HeaderTypeAndByteExtractorsGiveTheirField
  iterate 4 refine ⟨decode_of_mem_plainWords (by decide), ?_⟩
  rintro s _ rfl
  rw [← headerKind_field]
  exact ⟨fHeaderType_completes s, extractFlag_completes 23 rfl, extractField_completes 31 24 rfl,
    extractField_completes 7 0 rfl⟩

/-! ### The status decoders -/

/-- `i` decodes bits `hi:lo` of the status word, none of which is reserved (R39; log entry 6). -/
structure DecodesStatus (i : Instr) (hi lo : Nat) : Prop where
  exec_eq : ∀ s, exec i s = decodeStatus hi lo s
  inWord : hi < 16
  unreserved : ∀ b ≤ hi, lo ≤ b → (0xFFB8#32).getLsbD b = true

theorem decodesStatus_of_mem_statusFlags {i : Instr} {b : Nat} (h : (i, b) ∈ statusFlags) : DecodesStatus i b b := by
  simp only [statusFlags, List.mem_cons, Prod.mk.injEq, List.not_mem_nil, or_false] at h
  obtain ⟨rfl, rfl⟩ | ⟨rfl, rfl⟩ | ⟨rfl, rfl⟩ | ⟨rfl, rfl⟩ | ⟨rfl, rfl⟩ | ⟨rfl, rfl⟩ | ⟨rfl, rfl⟩ | ⟨rfl, rfl⟩ |
    ⟨rfl, rfl⟩ | ⟨rfl, rfl⟩ := h <;> exact ⟨fun _ => rfl, by decide, by decide⟩

theorem decodesStatus_sDevsel : DecodesStatus .sDevsel 10 9 := ⟨fun _ => rfl, by decide, by decide⟩

theorem DecodesStatus.exec_next {i : Instr} {hi lo : Nat} (h : DecodesStatus i hi lo) (s : State) :
    exec i s = .next (s.finish .ok 0#4 { val0 := some (field s.pins.opa hi lo) }) := by
  rw [h.exec_eq, ← field_low16 h.inWord]
  rfl

/-- Settles O28: each decoder answers its bits of the status word, which are bits of the operand. -/
theorem statusDecodersGiveTheirField : Obligations.StatusDecodersGiveTheirField := by
  unfold Obligations.StatusDecodersGiveTheirField
  iterate 11 refine ⟨decode_of_mem_plainWords (by decide), ?_⟩
  refine fun s => ⟨fun p hp => ?_, completesAtOnce_of (o := .ok) (decodesStatus_sDevsel.exec_next s)⟩
  rw [← flag_eq]
  exact completesAtOnce_of (o := .ok) ((decodesStatus_of_mem_statusFlags hp).exec_next s)

theorem getLsbD_eq_of_and_eq {a c m : Word} (h : a &&& m = c &&& m) {b : Nat} (hm : m.getLsbD b = true) :
    a.getLsbD b = c.getLsbD b := by
  simpa [hm] using congrArg (·.getLsbD b) h

/-- With another operand that agrees on the unreserved status bits, a status decoder does the same and keeps that operand. -/
theorem DecodesStatus.ignores_reserved {i : Instr} {hi lo : Nat} (h : DecodesStatus i hi lo) {s : State} {a : Word}
    (ha : a &&& 0xFFB8#32 = s.pins.opa &&& 0xFFB8#32) :
    exec i (s.withPins { s.pins with opa := a }) = onNext (State.withPins { s.pins with opa := a }) (exec i s) := by
  have hf : field a hi lo = field s.pins.opa hi lo :=
    field_congr fun b hb hl => getLsbD_eq_of_and_eq ha (h.unreserved b hb hl)
  rw [h.exec_next, h.exec_next, State.withPins_pins, hf]
  rfl

/-- Settles O29: every status decoder answers a field of unreserved bits, and keeps the input signals. -/
theorem statusDecodersIgnoreReservedBits : Obligations.StatusDecodersIgnoreReservedBits := by
  intro i s a hd ha
  obtain ⟨hi, lo, h⟩ : ∃ hi lo, DecodesStatus i hi lo := by
    rcases hd with rfl | hm
    · exact ⟨10, 9, decodesStatus_sDevsel⟩
    · obtain ⟨⟨i, b⟩, hb, rfl⟩ := List.mem_map.mp hm
      exact ⟨b, b, decodesStatus_of_mem_statusFlags hb⟩
  exact ⟨_, h.exec_next s, (h.ignores_reserved ha).trans (congrArg (onNext _) (h.exec_next s))⟩

end Sys2Proof.Machine
end

section
/-! PROOFS. The header reader: what each of its commands answers in the step that accepts it and in the steps its reads complete, and the
runs that follow from these (R124 to R131). -/

namespace Sys2Proof.Machine

/-! ### Acceptance -/

/-- What the acceptance of a header command leaves: its first read, at `off`, is outstanding (R124). -/
def State.headerAccepted (s : State) (off : Off) : State :=
  ((s.latchCommand off).goto .hdrRd0).present (.read s.pins.opa off)

section
variable {s : State} {off : Off}

theorem headerRead_idle {complete : Word → State → StepOutcome} (ho : offsetOk off = true) (hf : s.fsm = .idle) :
    headerRead off complete s = .next (s.headerAccepted off) := by
  simp only [headerRead, hf]
  exact acceptRead_ok ho

theorem execCfgCapPointer_idle (hf : s.fsm = .idle) :
    execCfgCapPointer s = .next (s.headerAccepted 0x04#12) := by
  simp only [execCfgCapPointer, hf]
  exact acceptRead_ok (by decide)

theorem exec_header_idle {i : Instr} (ho : headerOffset i = some off) (hf : s.fsm = .idle) :
    exec i s = .next (s.headerAccepted off) := by
  cases i
  case cfgIdentity | cfgStatus | cfgRevClass | cfgHeaderType | cfgMultifunction | cfgEndpoint =>
    cases ho
    exact headerRead_idle (by decide) hf
  case cfgCapPointer =>
    cases ho
    exact execCfgCapPointer_idle hf
  all_goals cases ho

end

theorem headerOffset_of_mem_headerReads : ∀ p ∈ headerReads, headerOffset p.1 = some p.2 := by decide

/-- Settles O31: `headerAccepted` is what every header command answers when the sequencer is IDLE. -/
theorem headerCommandsAcceptWithOneRead : Obligations.HeaderCommandsAcceptWithOneRead := by
  intro s i off hm hf
  refine ⟨_, exec_header_idle (headerOffset_of_mem_headerReads _ hm) hf, rfl, rfl, rfl, rfl, rfl, rfl, rfl, ?_, ?_, ?_⟩
  all_goals constructor <;> rfl

/-! ### The step in which the read of a command completes -/

/-- The header type is 0 exactly when its seven bits are (R130). -/
theorem field_headerType_eq_zero (v : Word) : field v 22 16 = 0#32 ↔ v.extractLsb' 16 7 = 0#7 := by
  simp only [← BitVec.toNat_inj, field_toNat, BitVec.extractLsb'_toNat, Nat.shiftRight_eq_div_pow, BitVec.toNat_ofNat]
  omega

section
variable {s : State} {v : Word}

theorem headerRead_hdrRd0 {off : Off} {complete : Word → State → StepOutcome} (hf : s.fsm = .hdrRd0)
    (hc : s.completion = some v) : headerRead off complete s = complete v (s.retire (.readDone v)) := by
  simp only [headerRead, hf]
  exact onReadDone_some hc

theorem cfgIdentity_completes (hf : s.fsm = .hdrRd0) (hc : s.completion = some v) :
    CompletesOnRead .cfgIdentity s v 1#2 0#4
      { val0 := some ((v.extractLsb' 0 16).setWidth 32), val1 := some ((v.extractLsb' 16 16).setWidth 32) } :=
  completesOnRead_of (o := .ok) (headerRead_hdrRd0 hf hc)

theorem cfgStatus_completes (hf : s.fsm = .hdrRd0) (hc : s.completion = some v) :
    CompletesOnRead .cfgStatus s v 1#2 0#4 { val0 := some ((v.extractLsb' 16 16).setWidth 32) } :=
  completesOnRead_of (o := .ok) (headerRead_hdrRd0 hf hc)

theorem cfgRevClass_completes (hf : s.fsm = .hdrRd0) (hc : s.completion = some v) :
    CompletesOnRead .cfgRevClass s v 1#2 0#4
      { val0 := some ((v.extractLsb' 0 8).setWidth 32), val1 := some ((v.extractLsb' 24 8).setWidth 32)
        val2 := some ((v.extractLsb' 16 8).setWidth 32), val3 := some ((v.extractLsb' 8 8).setWidth 32) } :=
  completesOnRead_of (o := .ok) (headerRead_hdrRd0 hf hc)

theorem cfgHeaderType_completes (hf : s.fsm = .hdrRd0) (hc : s.completion = some v) :
    CompletesOnRead .cfgHeaderType s v 1#2 0#4
      { val0 := some ((v.extractLsb' 16 7).setWidth 32)
        val1 := some (if v.extractLsb' 16 7 = 0#7 then 0#32 else if v.extractLsb' 16 7 = 1#7 then 1#32
          else if v.extractLsb' 16 7 = 2#7 then 2#32 else 3#32) } := by
  rw [← headerKind_field]
  exact completesOnRead_of (o := .ok) (headerRead_hdrRd0 hf hc)

theorem cfgMultifunction_completes (hf : s.fsm = .hdrRd0) (hc : s.completion = some v) :
    CompletesOnRead .cfgMultifunction s v 1#2 0#4 { val0 := some (if v.getLsbD 23 then 1#32 else 0#32) } := by
  rw [← flag_eq]
  exact completesOnRead_of (o := .ok) (headerRead_hdrRd0 hf hc)

theorem cfgEndpoint_completes_ok (hf : s.fsm = .hdrRd0) (hc : s.completion = some v) (h0 : v.extractLsb' 16 7 = 0#7) :
    CompletesOnRead .cfgEndpoint s v 1#2 0#4 {} :=
  completesOnRead_of (o := .ok) ((headerRead_hdrRd0 hf hc).trans (if_pos ((field_headerType_eq_zero v).mpr h0)))

theorem cfgEndpoint_completes_absent (hf : s.fsm = .hdrRd0) (hc : s.completion = some v)
    (h0 : v.extractLsb' 16 7 ≠ 0#7) : CompletesOnRead .cfgEndpoint s v 2#2 0#4 {} :=
  completesOnRead_of (o := .absent) ((headerRead_hdrRd0 hf hc).trans (if_neg (mt (field_headerType_eq_zero v).mp h0)))

theorem cfgEndpoint_completes (hf : s.fsm = .hdrRd0) (hc : s.completion = some v) :
    CompletesOnRead .cfgEndpoint s v (if v.extractLsb' 16 7 = 0#7 then 1#2 else 2#2) 0#4 {} := by
  split
  · exact cfgEndpoint_completes_ok hf hc ‹_›
  · exact cfgEndpoint_completes_absent hf hc ‹_›

end

/-- Settles O32: the completion of each command, with both branches of CFG_ENDPOINT. -/
theorem headerCommandsCompleteOnTheirRead : Obligations.HeaderCommandsCompleteOnTheirRead := fun _ _ hf hc =>
  ⟨cfgIdentity_completes hf hc, cfgStatus_completes hf hc, cfgRevClass_completes hf hc, cfgHeaderType_completes hf hc,
    cfgMultifunction_completes hf hc, cfgEndpoint_completes_ok hf hc, cfgEndpoint_completes_absent hf hc⟩

/-! ### CFG_CAP_POINTER -/

section
variable {s : State} {v : Word}

theorem exec_cfgCapPointer_hdrRd0 (hf : s.fsm = .hdrRd0) (hc : s.completion = some v) :
    exec .cfgCapPointer s = capPointerGate v (s.retire (.readDone v)) := by
  simp only [exec, execCfgCapPointer, hf]
  exact onReadDone_some hc

/-- Without a capability list there is no second read (R131). -/
theorem exec_cfgCapPointer_of_clear (hf : s.fsm = .hdrRd0) (hc : s.completion = some v) (hv : v.getLsbD 20 = false) :
    exec .cfgCapPointer s =
      .next (((s.retire (.readDone v)).latchRaw v).finish .ok 0#4 { val0 := some 0#32 }) :=
  (exec_cfgCapPointer_hdrRd0 hf hc).trans (if_neg (Bool.eq_false_iff.mp hv))

/-- With a capability list the read at 0x34 is to follow (R131; log entry 4). -/
theorem exec_cfgCapPointer_of_set {key : Word} (hf : s.fsm = .hdrRd0) (hc : s.completion = some v)
    (hv : v.getLsbD 20 = true) (hk : s.keyL = some key) :
    exec .cfgCapPointer s =
      .next ((((s.retire (.readDone v)).latchRaw v).latchOff 0x34#12).prepare (.read key 0x34#12) .hdrRd1) := by
  rw [exec_cfgCapPointer_hdrRd0 hf hc, capPointerGate, if_pos hv]
  exact Eq.trans (withKey_some hk) (issueNext_read (by decide))

theorem exec_cfgCapPointer_hdrRd1 (hf : s.fsm = .hdrRd1) (hc : s.completion = some v) :
    exec .cfgCapPointer s = .next ((s.retire (.readDone v)).finish .ok 0#4 { val0 := some (field v 7 0) }) := by
  simp only [exec, execCfgCapPointer, hf]
  exact onReadDone_some hc

theorem exec_cfgCapPointer_presents {x : Transaction} (hf : s.fsm = .hdrRd1) (hp : s.port = none)
    (hx : s.pending = some x) : exec .cfgCapPointer s = .next (s.present x) := by
  simp only [exec, execCfgCapPointer, hf]
  rw [onReadDone_none (completion_of_port_none hp), presentPending_eq_present hp hx]

end

/-- Settles O33: the two branches of the gate, and the completion of the pointer read. -/
theorem capPointerFollowsTheStatusFlag : Obligations.CapPointerFollowsTheStatusFlag := by
  intro s v key hc hk
  refine ⟨fun hf hv => ?clear, fun hf hv => ?set, fun hf => ?pointer⟩
  case clear =>
    refine ⟨_, exec_cfgCapPointer_of_clear hf hc hv, finish_finished .., ?_, rfl, rfl, rfl, rfl, rfl, ?_⟩
    all_goals constructor <;> rfl
  case set =>
    refine ⟨_, exec_cfgCapPointer_of_set hf hc hv hk, rfl, rfl, ?_, rfl, rfl, rfl, rfl, rfl, ?_, ?_⟩
    all_goals constructor <;> rfl
  case pointer => exact completesOnRead_of (o := .ok) (exec_cfgCapPointer_hdrRd1 hf hc)

/-! ### Runs -/

/-- In a step with an answer to the outstanding transaction the latched command goes on, and that transaction completes. -/
theorem step_answered {s : State} {p : Pins} {rest : List Pins} {w v : Word} {i : Instr} {n : Nat} (hb : s.busy = true)
    (hf : s.fsm ≠ .idle) (hw : s.cmdL = some w) (hd : decode w = .ok i) (hp : s.port.isSome = true)
    (hi : s.inputs = p :: rest) (ha : Answers p n v) (hn : n + 1 = s.issued) :
    step s = exec i (s.begun none) ∧ (s.begun none).completion = some v :=
  ⟨step_latched hb hf hi ha.read ha.rst hw hd,
    completion_eq_some.mpr ⟨hp, n, by simpa [hi] using ha.done, hn⟩⟩

/-- The work of a step from `u` is that of the header command `w`, presented in `s` with `key`, whose first read, at `off`, completes with
`v`; the inputs `rest` are still to come. -/
structure FirstReadDone (s u : State) (w key : Word) (off : Off) (v : Word) (rest : List Pins) : Prop where
  fsm : u.fsm = .hdrRd0
  cmdL : u.cmdL = some w
  keyL : u.keyL = some key
  completion : u.completion = some v
  issued : u.issued = s.issued + 1
  inputs : u.inputs = rest
  history : u.history = s.history ++ [.issued (.read key off)]

/-- A header command, presented and answered, gets to the completion of its first read in the second step. -/
theorem reaches_firstReadDone {s : State} {p0 p1 : Pins} {rest : List Pins} {w key b v : Word} {i : Instr} {off : Off}
    (hs : s.Ready) (hi : s.inputs = p0 :: p1 :: rest) (hp : Presents p0 w key b) (ha : Answers p1 s.issued v)
    (hd : decode w = .ok i) (ho : headerOffset i = some off) :
    ∃ u, FirstReadDone s u w key off v rest ∧
      ∀ {k t t'}, exec i u = .next t → t.Reaches k t' → s.Reaches (k + 2) t' := by
  obtain ⟨hrst, hread, hvalid, rfl, rfl, -⟩ := hp
  have h1 : step s = .next ((s.begun none).headerAccepted off) :=
    (step_presented hs hi hread hrst hvalid hd).trans (exec_header_idle ho hs.1)
  obtain ⟨h2, hv⟩ := step_answered (s := (s.begun none).headerAccepted off) (w := p0.cmd) (rest := rest) rfl nofun
    (by simp [State.headerAccepted, hi]) hd rfl (by simp [State.headerAccepted, hi]) ha rfl
  refine ⟨_, ⟨rfl, ?_, ?_, hv, rfl, ?_, ?_⟩, fun ht hr => reaches_succ h1 (reaches_succ (h2.trans ht) hr)⟩
  all_goals simp [State.headerAccepted, hi]

theorem runsWithOneRead_of {i : Instr} {w : Word} {off : Off} {o : Word → BitVec 2} {r : Word → Results}
    (hw : (w, i) ∈ plainWords) (ho : headerOffset i = some off)
    (hc : ∀ {s v}, s.fsm = .hdrRd0 → s.completion = some v → CompletesOnRead i s v (o v) 0#4 (r v)) :
    RunsWithOneRead w off o r := by
  intro s p0 p1 rest key b v hs hi hp ha
  obtain ⟨u, hu, hrun⟩ := reaches_firstReadDone hs hi hp ha (decode_of_mem_plainWords hw) ho
  obtain ⟨t, ht, hfin, hdone, -, hin⟩ := hc hu.fsm hu.completion
  exact ⟨t, hrun ht rfl, hfin, hin.inputs.trans hu.inputs, by simp [Appends, hdone.history, hu.history]⟩

/-- Settles O34: each command's completion, after its acceptance. -/
theorem headerCommandsRunWithOneRead : Obligations.HeaderCommandsRunWithOneRead :=
  ⟨runsWithOneRead_of (i := .cfgIdentity) (by decide) rfl cfgIdentity_completes,
    runsWithOneRead_of (i := .cfgStatus) (by decide) rfl cfgStatus_completes,
    runsWithOneRead_of (i := .cfgRevClass) (by decide) rfl cfgRevClass_completes,
    runsWithOneRead_of (i := .cfgHeaderType) (by decide) rfl cfgHeaderType_completes,
    runsWithOneRead_of (i := .cfgMultifunction) (by decide) rfl cfgMultifunction_completes,
    runsWithOneRead_of (i := .cfgEndpoint) (by decide) rfl cfgEndpoint_completes⟩

/-- From the gate's open branch two steps present the second read and complete it. -/
theorem reaches_pointerRead {s : State} {q p : Pins} {rest : List Pins} {x : Transaction} {v : Word}
    (hf : s.fsm = .hdrRd1) (hb : s.busy = true) (hw : s.cmdL = some 0x56#32) (hp : s.port = none)
    (hx : s.pending = some x) (hi : s.inputs = q :: p :: rest) (hq : Passes q) (ha : Answers p s.issued v) :
    ∃ t, s.Reaches 2 t ∧ Finished t 1#2 0#4 { val0 := some (field v 7 0) } ∧ t.rawL = s.rawL ∧ t.offL = s.offL ∧
      t.history = s.history ++ [.issued x, .readDone v] := by
  have hd : decode 0x56#32 = .ok .cfgCapPointer := decode_of_mem_plainWords (by decide)
  have hn : s.fsm ≠ .idle := by simp [hf]
  have h1 : step s = .next ((s.begun none).present x) :=
    (step_latched hb hn hi hq.read hq.rst hw hd).trans (exec_cfgCapPointer_presents hf hp hx)
  obtain ⟨h2, hv⟩ := step_answered (s := (s.begun none).present x) (rest := rest) (by simp [hb]) (by simp [hf])
    (by simp [hw]) hd (by simp) (by simp [hi]) ha (by simp)
  have h3 := h2.trans (exec_cfgCapPointer_hdrRd1 (by simp [hf]) hv)
  exact ⟨_, reaches_succ h1 (reaches_succ h3 rfl), finish_finished .., by simp, by simp, by simp⟩

/-- Settles O35: with the flag clear the command ends with its first read; with it set the second read follows. -/
theorem capPointerRunsGatedByTheStatusFlag : Obligations.CapPointerRunsGatedByTheStatusFlag := by
  intro s p0 p1 q p2 rest key b v x hs hi hp ha hq ha2
  obtain ⟨u, hu, hrun⟩ := reaches_firstReadDone hs hi hp ha (i := .cfgCapPointer)
    (decode_of_mem_plainWords (by decide)) rfl
  refine ⟨fun hv => ?clear, fun hv => ?set⟩
  case clear =>
    exact ⟨_, hrun (exec_cfgCapPointer_of_clear hu.fsm hu.completion hv) rfl, finish_finished .., rfl,
      by simp [Appends, hu.history]⟩
  case set =>
    obtain ⟨t, hr, hfin, hraw, hoff, hh⟩ := reaches_pointerRead
      (s := (((u.retire (.readDone v)).latchRaw v).latchOff 0x34#12).prepare (.read key 0x34#12) .hdrRd1)
      rfl rfl hu.cmdL rfl rfl hu.inputs hq (hu.issued ▸ ha2)
    exact ⟨t, hrun (exec_cfgCapPointer_of_set hu.fsm hu.completion hv hu.keyL) hr, hfin, hraw, hoff,
      by simp [Appends, hh, hu.history]⟩

end Sys2Proof.Machine
end

section
/-! PROOFS. The trace of a running probe (R140, R148): a step that goes on with the probe adds to the trace exactly the event that
`probeTrace` lists next, and every other step leaves the sequencer in a state whose trace is empty. -/

namespace Sys2Proof.Machine

/-- In a state of the sequencer without a probe there is nothing to trace. -/
theorem probeTraced_of_silent {t : State} (h : ∀ key off raw back, probeTrace key off raw back t.fsm = []) :
    t.ProbeTraced := by
  intro w slot key _ _ _
  simp [State.probeEvents, h]

theorem probeEvents_of_not_pending {s : State} (hp : s.pending = none) (slot : Nat) (key : Word) :
    s.probeEvents slot key =
      probeTrace key (barOffset slot) (s.rawL.getD 0#32) (s.backL.getD 0#32) s.fsm := by
  simp [State.probeEvents, hp]

/-- A probe whose transaction completes with `e` and that goes on to `f` is traced, when `e` is what the trace lists next. -/
theorem prepare_probeTraced {s u : State} {e : Event} {x : Transaction} {f : Fsm} (hs : s.ProbeTraced)
    (hp : s.pending = none) (hc : u.cmdL = s.cmdL) (hk : u.keyL = s.keyL) (hh : u.history = s.history ++ [e])
    (he : ∀ key off, (probeTrace key off (u.rawL.getD 0#32) (u.backL.getD 0#32) f).dropLast =
      probeTrace key off (s.rawL.getD 0#32) (s.backL.getD 0#32) s.fsm ++ [e]) : (u.prepare x f).ProbeTraced := by
  intro w slot key hw hd hkey
  have hev : (u.prepare x f).probeEvents slot key = s.probeEvents slot key ++ [e] :=
    (he key (barOffset slot)).trans (by rw [probeEvents_of_not_pending hp])
  rw [hev, State.prepare_history, hh]
  exact List.suffix_append_self_iff.mpr (hs w slot key (hc ▸ hw) hd (hk ▸ hkey))

/-- The pending transaction of a running command is the current one. -/
theorem State.Current.eq_of_pending {s : State} {x y : Transaction} (hc : s.Current y) (hx : s.pending = some x) : y = x := by
  rcases hc with ⟨-, h⟩ | ⟨-, h⟩
  · simp [hx] at h
  · exact Option.some.inj (h.symm.trans hx)

/-- The transaction that a running probe has pending is the one its trace lists last. -/
theorem probeTrace_eq_concat_pending {s : State} {x : Transaction} {w key : Word} {slot : Nat} (hs : s.Sequenced)
    (hx : s.pending = some x) (hw : s.cmdL = some w) (hd : decode w = .ok (.barProbe slot)) (hk : s.keyL = some key) :
    probeTrace key (barOffset slot) (s.rawL.getD 0#32) (s.backL.getD 0#32) s.fsm =
      s.probeEvents slot key ++ [.issued x] := by
  have same : ∀ {slot' key' off y}, ProbeRunning s slot' key' off y → slot' = slot ∧ key' = key ∧ y = x := fun m =>
    ⟨(Instr.barProbe.inj (m.eq_barProbe hw hd)).symm, Option.some.inj (m.key.symm.trans hk), m.current.eq_of_pending hx⟩
  cases h : s.fsm with
  | idle => simp [((sequenced_idle h).mp hs).2] at hx
  | hdrRd0 =>
    obtain ⟨w', i, key', off, -, -, -, -, -, -, hn⟩ := (sequenced_hdrRd0 h).mp hs
    simp [hn] at hx
  | hdrRd1 =>
    obtain ⟨w', key', hw', hd', -⟩ := (sequenced_hdrRd1 h).mp hs
    cases latched_unique hw hd hw' hd'
  | barRawRd =>
    obtain ⟨slot', key', hn, -⟩ := (sequenced_barRawRd h).mp hs
    simp [hn] at hx
  | barOnesWr =>
    obtain ⟨slot', key', raw, -, -, m⟩ := (sequenced_barOnesWr h).mp hs
    obtain ⟨rfl, rfl, rfl⟩ := same m
    simp [State.probeEvents, h, hx, probeTrace]
  | barBackRd =>
    obtain ⟨slot', key', raw, -, -, m⟩ := (sequenced_barBackRd h).mp hs
    obtain ⟨rfl, rfl, rfl⟩ := same m
    simp [State.probeEvents, h, hx, probeTrace]
  | barRestoreWr =>
    obtain ⟨slot', key', raw, back, hr, -, -, m⟩ := (sequenced_barRestoreWr h).mp hs
    obtain ⟨rfl, rfl, rfl⟩ := same m
    simp [State.probeEvents, h, hx, hr, probeTrace]
  | barUpperRd =>
    obtain ⟨slot', key', raw, back, -, -, -, -, -, m⟩ := (sequenced_barUpperRd h).mp hs
    obtain ⟨rfl, rfl, rfl⟩ := same m
    simp [State.probeEvents, h, hx, probeTrace]

theorem present_probeTraced {s : State} {x : Transaction} (hs : s.Sequenced) (ht : s.ProbeTraced)
    (hx : s.pending = some x) : (s.present x).ProbeTraced := by
  intro w slot key hw hd hk
  have hev : (s.present x).probeEvents slot key = s.probeEvents slot key ++ [.issued x] :=
    probeTrace_eq_concat_pending hs hx hw hd hk
  rw [hev, State.present_history]
  exact List.suffix_append_self_iff.mpr (ht w slot key hw hd hk)

/-- The trace of an accepted probe is its raw read (R134). -/
theorem rawRead_probeTraced {s : State} {slot : Nat} (hd : decode s.pins.cmd = .ok (.barProbe slot)) :
    (((s.latchCommand (barOffset slot)).goto .barRawRd).present (.read s.pins.opa (barOffset slot))).ProbeTraced := by
  intro w slot' key hw hd' hk
  cases hw
  cases hk
  cases hd.symm.trans hd'
  exact List.suffix_append ..

theorem accessStep_probeTraced {i : Instr} {s t : State} (hs : s.Sequenced) (ht : s.ProbeTraced) (hi : Serves s i)
    (h : AccessStep i s t) : t.ProbeTraced := by
  cases h with
  | waits => exact ht
  | presents _ _ hx => exact present_probeTraced hs ht hx
  | rawRead hf => exact rawRead_probeTraced (hi.presented_of_idle hf)
  | onesWrite hf hc | readBack hf hc | restore hf hc | upperRead hf hc =>
    exact prepare_probeTraced ht (pending_of_completion hs hc) rfl rfl rfl fun _ _ => by rw [hf]; rfl
  | _ => exact probeTraced_of_silent fun _ _ _ _ => rfl

theorem stepCase_probeTraced {b t : State} (hb : b.Sequenced) (ht : b.ProbeTraced) (h : StepCase b t) :
    t.ProbeTraced := by
  cases h with
  | quiet => exact ht
  | access _ _ _ hi h => exact accessStep_probeTraced hb ht hi h
  | _ => exact probeTraced_of_silent fun _ _ _ _ => rfl

/-- Settles O49: every transition of a probe adds the next event of `probeTrace`, whatever the waits between. -/
theorem stepKeepsTheProbeTrace : Obligations.StepKeepsTheProbeTrace := by
  intro s t hs ht h
  obtain ⟨d, hc⟩ := step_cases h
  exact stepCase_probeTraced (begun_sequenced hs.sequenced d) ht hc

end Sys2Proof.Machine
end

section
/-! PROOFS. R_BAR_SIZE is a power of two from 2^4 to 2^31 (R145): a step keeps it, clears it, or writes the least set bit of a nonzero
remainder. -/

namespace Sys2Proof.Machine

theorem sizeLegal_of_none {t : State} (h : t.barSize = none) : t.SizeLegal := by
  intro z hz
  simp [h] at hz

/-- The size of a nonzero remainder is legal (R141, R145). -/
theorem sizeLegal_of_remainder {t : State} {back : Word} (hz : sizeRemainder back ≠ 0#32)
    (h : t.barSize = some ((barSize32 back).setWidth 64)) : t.SizeLegal := by
  intro z hs
  obtain rfl := Option.some.inj (h.symm.trans hs)
  have hlt := (ctz_spec hz).1
  exact ⟨_, four_le_ctz hz, by omega, (BitVec.toNat_setWidth_of_le (by decide)).trans (barSize32_toNat hz)⟩

theorem accessStep_sizeLegal {i : Instr} {s t : State} (hs : s.Sequenced) (hl : s.SizeLegal) (h : AccessStep i s t) :
    t.SizeLegal := by
  cases h with
  | waits | presents | accepts | capabilities | rawRead | onesWrite | readBack | restore | upperRead => exact hl
  | completes _ _ _ _ _ _ _ _ hb =>
    obtain ⟨-, -, hsize, -⟩ := hb
    exact sizeLegal_of_none hsize
  | noCapabilities | pointer | badSlot | ioBar | reservedType | absentBar | noSize => exact sizeLegal_of_none rfl
  | memory32 _ _ _ _ hz => exact sizeLegal_of_remainder hz rfl
  | memory64 hf _ _ hb =>
    obtain ⟨_, _, _, back, -, -, -, hb', hz, -⟩ := (sequenced_barUpperRd hf).mp hs
    obtain rfl := Option.some.inj (hb.symm.trans hb')
    exact sizeLegal_of_remainder hz rfl

theorem stepCase_sizeLegal {b t : State} (hb : b.Sequenced) (hl : b.SizeLegal) (h : StepCase b t) : t.SizeLegal := by
  cases h with
  | quiet => exact hl
  | reset | illegal | error => exact sizeLegal_of_none rfl
  | value _ _ _ _ _ hn =>
    obtain ⟨-, -, hsize, -⟩ := hn
    exact sizeLegal_of_none hsize
  | access _ _ _ _ h => exact accessStep_sizeLegal hb hl h

/-- Settles O51: the sequencer's agreement gives the nonzero remainder in the state that completes a 64-bit BAR. -/
theorem stepKeepsBarSizeAPowerOfTwo : Obligations.StepKeepsBarSizeAPowerOfTwo := by
  intro s t hs hl h
  obtain ⟨d, hc⟩ := step_cases h
  exact stepCase_sizeLegal (begun_sequenced hs.sequenced d) hl hc

end Sys2Proof.Machine
end

section
/-! PROOFS. The BAR probe: what it answers in the step that accepts it and in each step in which one of its transactions completes, said
once per branch of its state machine, and the statements that follow from these (R134 to R144). -/

namespace Sys2Proof.Machine

/-! ### The bits of a memory BAR -/

/-- The memory type is bits 2 and 1 of the raw value (R40). -/
theorem memoryType_eq_iff (v : Word) (y : BitVec 2) :
    memoryType v = y ↔ v.getLsbD 1 = y.getLsbD 0 ∧ v.getLsbD 2 = y.getLsbD 1 := by
  have hbits : ∀ x y : BitVec 2, x = y ↔ x.getLsbD 0 = y.getLsbD 0 ∧ x.getLsbD 1 = y.getLsbD 1 := by decide
  have h1 : (memoryType v).getLsbD 0 = v.getLsbD 1 := by simp [memoryType]
  have h2 : (memoryType v).getLsbD 1 = v.getLsbD 2 := by simp [memoryType]
  rw [hbits, h1, h2]

theorem memoryType_reserved_iff (v : Word) :
    memoryType v = 0b01#2 ∨ memoryType v = 0b11#2 ↔ v.getLsbD 1 = true := by
  rw [memoryType_eq_iff, memoryType_eq_iff]
  cases v.getLsbD 2 <;> simp

theorem offsetOk_add_four {off : Off} (h4 : off.toNat % 4 = 0) (h : off.toNat < 252) :
    offsetOk (off + 4#12) = true := by
  have he : (off + 4#12).toNat = off.toNat + 4 := by
    rw [BitVec.toNat_add, BitVec.toNat_ofNat]
    omega
  exact offsetOk_of_lt (by omega) (by omega)

/-! ### One equation per branch -/

/-- What the acceptance of a probe leaves: its raw read is outstanding (R134). -/
def State.probeAccepted (s : State) (slot : Nat) : State :=
  ((s.latchCommand (barOffset slot)).goto .barRawRd).present (.read s.pins.opa (barOffset slot))

section
variable {s : State} {slot : Nat} {v key raw back : Word} {off : Off}

theorem exec_barProbe_badSlot (hf : s.fsm = .idle) (hs : 5 < slot) :
    exec (.barProbe slot) s = .next (s.finish .error 5#4 {}) := by
  simp only [exec, execBarProbe, hf]
  exact if_pos hs

theorem exec_barProbe_accepted (hf : s.fsm = .idle) (hs : slot ≤ 5) :
    exec (.barProbe slot) s = .next (s.probeAccepted slot) := by
  simp only [exec, execBarProbe, hf]
  exact (if_neg (by omega)).trans (acceptRead_ok (offsetOk_barOffset hs))

theorem exec_barProbe_rawRd (hf : s.fsm = .barRawRd) (hc : s.completion = some v) :
    exec (.barProbe slot) s = barRawDone v (s.retire (.readDone v)) := by
  simp only [exec, execBarProbe, hf]
  exact onReadDone_some hc

/-- An I/O BAR (R136). -/
theorem exec_barProbe_io (hf : s.fsm = .barRawRd) (hc : s.completion = some v) (h0 : v.getLsbD 0 = true) :
    exec (.barProbe slot) s = .next (((s.retire (.readDone v)).latchRaw v).finish .ok 0#4
      { barKind := some 2#2, barAddr := some ((ioPort v).setWidth 64) }) :=
  (exec_barProbe_rawRd hf hc).trans (if_pos h0)

/-- A reserved memory type (R137). -/
theorem exec_barProbe_reservedType (hf : s.fsm = .barRawRd) (hc : s.completion = some v) (h0 : v.getLsbD 0 = false)
    (h1 : v.getLsbD 1 = true) :
    exec (.barProbe slot) s = .next (((s.retire (.readDone v)).latchRaw v).finish .error 2#4 {}) := by
  rw [exec_barProbe_rawRd hf hc, barRawDone, if_neg (Bool.eq_false_iff.mp h0),
    if_pos ((memoryType_reserved_iff v).mpr h1)]
  rfl

/-- A memory BAR: the all-ones write is to follow (R137; log entry 4). -/
theorem exec_barProbe_onesWrite (hf : s.fsm = .barRawRd) (hc : s.completion = some v) (hk : s.keyL = some key)
    (ho : s.offL = some off) (hok : offsetOk off = true) (h0 : v.getLsbD 0 = false) (h1 : v.getLsbD 1 = false) :
    exec (.barProbe slot) s =
      .next (((s.retire (.readDone v)).latchRaw v).prepare (.write key off allOnes) .barOnesWr) := by
  rw [exec_barProbe_rawRd hf hc, barRawDone, if_neg (Bool.eq_false_iff.mp h0),
    if_neg (mt (memoryType_reserved_iff v).mp (Bool.eq_false_iff.mp h1))]
  exact Eq.trans (withAccess_some hk ho) (issueNext_write hok)

/-- The all-ones write is acknowledged: the read-back is to follow (R138; log entry 4). -/
theorem exec_barProbe_readBack (hf : s.fsm = .barOnesWr) (hc : s.completion = some v) (hk : s.keyL = some key)
    (ho : s.offL = some off) (hok : offsetOk off = true) :
    exec (.barProbe slot) s = .next ((s.retire .writeDone).prepare (.read key off) .barBackRd) := by
  simp only [exec, execBarProbe, hf]
  exact (onWriteDone_some hc).trans (Eq.trans (withAccess_some hk ho) (issueNext_read hok))

/-- The read-back completes: the write of RAW_L is to follow (R139; log entry 4). -/
theorem exec_barProbe_restore (hf : s.fsm = .barBackRd) (hc : s.completion = some v) (hk : s.keyL = some key)
    (ho : s.offL = some off) (hr : s.rawL = some raw) (hok : offsetOk off = true) :
    exec (.barProbe slot) s =
      .next (((s.retire (.readDone v)).latchBack v).prepare (.write key off raw) .barRestoreWr) := by
  simp only [exec, execBarProbe, hf]
  exact (onReadDone_some hc).trans
    (Eq.trans (withRaw_some hr) (Eq.trans (withAccess_some hk ho) (issueNext_write hok)))

theorem exec_barProbe_restoreWr (hf : s.fsm = .barRestoreWr) (hc : s.completion = some v) (hr : s.rawL = some raw)
    (hb : s.backL = some back) :
    exec (.barProbe slot) s = if back = 0#32 then (s.retire .writeDone).finishAbsent
      else if sizeRemainder back = 0#32 then (s.retire .writeDone).raiseError .barSizeUndetermined
      else if memoryType raw = 0b00#2 then (s.retire .writeDone).finishOk
        { barKind := some 0#2, barAddr := some ((memoryBase raw).setWidth 64)
          barSize := some ((barSize32 back).setWidth 64), barPf := some (prefetchable raw) }
      else barUpperRead (s.retire .writeDone) := by
  simp only [exec, execBarProbe, hf]
  exact (onWriteDone_some hc).trans (Eq.trans (withRaw_some hr) (withBack_some hb))

/-- Nothing reads back: the BAR is absent (R141). -/
theorem exec_barProbe_absent (hf : s.fsm = .barRestoreWr) (hc : s.completion = some v) (hr : s.rawL = some raw)
    (hb : s.backL = some 0#32) :
    exec (.barProbe slot) s = .next ((s.retire .writeDone).finish .absent 0#4 {}) :=
  (exec_barProbe_restoreWr hf hc hr hb).trans (if_pos rfl)

/-- Only type bits read back: the size is undetermined (R141). -/
theorem exec_barProbe_noSize (hf : s.fsm = .barRestoreWr) (hc : s.completion = some v) (hr : s.rawL = some raw)
    (hb : s.backL = some back) (h0 : back ≠ 0#32) (hz : back.toNat < 16) :
    exec (.barProbe slot) s = .next ((s.retire .writeDone).finish .error 3#4 {}) := by
  rw [exec_barProbe_restoreWr hf hc hr hb, if_neg h0, if_pos ((sizeRemainder_eq_zero back).mpr hz)]
  rfl

/-- With a size, the memory type decides between completion and the upper half (R141). -/
theorem exec_barProbe_sized (hf : s.fsm = .barRestoreWr) (hc : s.completion = some v) (hr : s.rawL = some raw)
    (hb : s.backL = some back) (hz : 16 ≤ back.toNat) :
    exec (.barProbe slot) s = if memoryType raw = 0b00#2 then (s.retire .writeDone).finishOk
        { barKind := some 0#2, barAddr := some ((memoryBase raw).setWidth 64)
          barSize := some ((barSize32 back).setWidth 64), barPf := some (prefetchable raw) }
      else barUpperRead (s.retire .writeDone) := by
  have hz' : sizeRemainder back ≠ 0#32 := mt (sizeRemainder_eq_zero back).mp hz.not_gt
  have h0 : back ≠ 0#32 := by
    rintro rfl
    exact hz' rfl
  rw [exec_barProbe_restoreWr hf hc hr hb, if_neg h0, if_neg hz']

/-- A 32-bit BAR with a size (R142). -/
theorem exec_barProbe_memory32 (hf : s.fsm = .barRestoreWr) (hc : s.completion = some v) (hr : s.rawL = some raw)
    (hb : s.backL = some back) (hz : 16 ≤ back.toNat) (ht : memoryType raw = 0b00#2) :
    exec (.barProbe slot) s = .next ((s.retire .writeDone).finish .ok 0#4
      { barKind := some 0#2, barAddr := some ((memoryBase raw).setWidth 64)
        barSize := some ((barSize32 back).setWidth 64), barPf := some (prefetchable raw) }) :=
  (exec_barProbe_sized hf hc hr hb hz).trans (if_pos ht)

/-- A 64-bit BAR with a size: the upper-half read is to follow (R143; log entry 4). -/
theorem exec_barProbe_upperRead (hf : s.fsm = .barRestoreWr) (hc : s.completion = some v) (hr : s.rawL = some raw)
    (hb : s.backL = some back) (hz : 16 ≤ back.toNat) (ht : memoryType raw ≠ 0b00#2) (hk : s.keyL = some key)
    (ho : s.offL = some off) (hok : offsetOk (off + 4#12) = true) :
    exec (.barProbe slot) s =
      .next (((s.retire .writeDone).latchOff (off + 4#12)).prepare (.read key (off + 4#12)) .barUpperRd) := by
  rw [exec_barProbe_sized hf hc hr hb hz, if_neg ht]
  exact Eq.trans (withAccess_some hk ho) (issueNext_read hok)

/-- The upper half completes a 64-bit BAR (R144). -/
theorem exec_barProbe_memory64 (hf : s.fsm = .barUpperRd) (hc : s.completion = some v) (hr : s.rawL = some raw)
    (hb : s.backL = some back) :
    exec (.barProbe slot) s = .next ((s.retire (.readDone v)).finish .ok 0#4
      { barKind := some 1#2, barAddr := some (v ++ memoryBase raw)
        barSize := some ((barSize32 back).setWidth 64), barPf := some (prefetchable raw) }) := by
  simp only [exec, execBarProbe, hf]
  exact (onReadDone_some hc).trans (Eq.trans (withRaw_some hr) (withBack_some hb))

end

/-! ### The steps of a probe -/

/-- Settles O36: the two branches of the acceptance. -/
theorem barProbeAcceptsOrReportsInvalidSlot : Obligations.BarProbeAcceptsOrReportsInvalidSlot := by
  refine fun s slot hf => ⟨fun hs => ?invalid, fun hs => ?accepted⟩
  case invalid => exact completesAtOnce_of (o := .error) (exec_barProbe_badSlot hf hs)
  case accepted =>
    refine ⟨_, _, exec_barProbe_accepted hf hs, barOffset_toNat hs, rfl, rfl, rfl, rfl, rfl, rfl, rfl, ?_, ?_, ?_⟩
    all_goals constructor <;> rfl

/-- Settles O37: the branches by bits 0 and 1 of the raw value. -/
theorem barRawReadDecides : Obligations.BarRawReadDecides := by
  intro s slot v key off hf hc hk ho h4 hlt
  cases h0 : v.getLsbD 0 with
  | true =>
    exact ⟨_, exec_barProbe_io hf hc h0, rfl, rfl, rfl, rfl, rfl, ⟨rfl, rfl, rfl⟩,
      fun _ => ⟨⟨rfl, rfl, rfl, rfl⟩, finish_finished ..⟩, nofun, nofun⟩
  | false =>
    cases h1 : v.getLsbD 1 with
    | true =>
      exact ⟨_, exec_barProbe_reservedType hf hc h0 h1, rfl, rfl, rfl, rfl, rfl, ⟨rfl, rfl, rfl⟩, nofun,
        fun _ _ => ⟨⟨rfl, rfl, rfl, rfl⟩, finish_finished ..⟩, nofun⟩
    | false =>
      refine ⟨_, exec_barProbe_onesWrite hf hc hk ho (offsetOk_of_lt h4 hlt) h0 h1, rfl, rfl, rfl, rfl, rfl,
        ⟨rfl, rfl, rfl⟩, nofun, nofun, fun _ _ => ⟨rfl, rfl, ?_, ?_⟩⟩
      all_goals constructor <;> rfl

/-- Settles O38: neither transition has a branch. -/
theorem barReadBackThenRestore : Obligations.BarReadBackThenRestore := by
  refine fun s slot v key off hc hk ho h4 hlt => ⟨fun hf => ?readBack, fun raw hf hr => ?restore⟩
  case readBack =>
    refine ⟨_, exec_barProbe_readBack hf hc hk ho (offsetOk_of_lt h4 hlt), rfl, rfl, ?_, ?_, ?_, ?_⟩
    all_goals constructor <;> rfl
  case restore =>
    refine ⟨_, exec_barProbe_restore hf hc hk ho hr (offsetOk_of_lt h4 hlt), rfl, rfl, ?_, rfl, rfl, rfl, rfl, rfl,
      ?_, ?_⟩
    all_goals constructor <;> rfl

/-- Settles O39: the branches by the read-back and, for one with a size, by the memory type. -/
theorem barRestoreDecides : Obligations.BarRestoreDecides := by
  intro s slot v key raw back off hf hc hk ho h4 hlt hr hb
  by_cases h0 : back = 0#32
  · subst h0
    exact ⟨_, exec_barProbe_absent hf hc hr hb, ⟨rfl, rfl, rfl⟩, rfl, rfl, rfl, rfl,
      fun _ => ⟨⟨rfl, rfl, rfl, rfl⟩, finish_finished .., rfl⟩, fun h => absurd rfl h, nofun, nofun⟩
  by_cases hz : back.toNat < 16
  · exact ⟨_, exec_barProbe_noSize hf hc hr hb h0 hz, ⟨rfl, rfl, rfl⟩, rfl, rfl, rfl, rfl, fun h => absurd h h0,
      fun _ _ => ⟨⟨rfl, rfl, rfl, rfl⟩, finish_finished .., rfl⟩, fun h => absurd hz h.not_gt,
      fun h => absurd hz h.not_gt⟩
  have hz' : 16 ≤ back.toNat := not_lt.mp hz
  by_cases ht : memoryType raw = 0b00#2
  · obtain ⟨k, h4k, hk32, hset, hleast, hsize⟩ := barSize32_spec hz'
    have hexec := exec_barProbe_memory32 (slot := slot) hf hc hr hb hz' ht
    rw [hsize] at hexec
    exact ⟨_, hexec, ⟨rfl, rfl, rfl⟩, rfl, rfl, rfl, rfl, fun h => absurd h h0, fun _ h => absurd h hz,
      fun _ _ => ⟨⟨rfl, rfl, rfl, rfl⟩, rfl, k, h4k, hk32, hset, hleast, finish_finished ..⟩,
      fun _ h => absurd ht h⟩
  · refine ⟨_, exec_barProbe_upperRead hf hc hr hb hz' ht hk ho (offsetOk_add_four h4 hlt), ⟨rfl, rfl, rfl⟩, rfl, rfl, rfl,
      rfl, fun h => absurd h h0, fun _ h => absurd h hz, fun _ h => absurd h ht, fun _ _ => ⟨rfl, rfl, rfl, ?_, ?_⟩⟩
    all_goals constructor <;> rfl

/-- Settles O40: the completion of a 64-bit BAR, with the size of the low slot. -/
theorem barUpperHalfCompletes : Obligations.BarUpperHalfCompletes := by
  intro s slot u raw back hf hc hr hb hz
  obtain ⟨k, h4, hk32, hset, hleast, hsize⟩ := barSize32_spec hz
  exact ⟨k, h4, hk32, hset, hleast, hsize ▸ completesOnRead_of (o := .ok) (exec_barProbe_memory64 hf hc hr hb)⟩

end Sys2Proof.Machine
end

section
/-! PROOFS. The type bits of the read-back (R150): the two rules that read BACK_L do the same after any two read-backs that leave the same
remainder and are both 0 or both not 0. -/

namespace Sys2Proof.Machine

/-- A part of a step does the same whether the read-back was `x` or `y`, and keeps the one it finds. -/
def SameAfter (x y : Word) (k : State → StepOutcome) : Prop :=
  ∀ s : State, k (s.latchBack y) = onNext (State.latchBack · y) (k (s.latchBack x))

namespace SameAfter

variable {x y : Word}

theorem onDone {e : Word → Event} {k : Word → State → StepOutcome} (hk : ∀ v, SameAfter x y (k v)) :
    SameAfter x y fun s => s.onDone fun v => k v (s.retire (e v)) := by
  intro s
  dsimp only
  have hc : ∀ b, (s.latchBack b).completion = s.completion := fun _ => rfl
  cases h : s.completion with
  | some v =>
    rw [onDone_some ((hc y).trans h), onDone_some ((hc x).trans h)]
    exact hk v (s.retire (e v))
  | none =>
    rw [onDone_none ((hc y).trans h), onDone_none ((hc x).trans h)]
    simp only [State.presentPending, State.latchBack_port, State.latchBack_pending]
    cases s.port <;> cases s.pending <;> rfl

theorem barUpperRead : SameAfter x y barUpperRead := by
  intro s
  simp only [Machine.barUpperRead, State.withAccess, State.withKey, State.latchBack_keyL, State.latchBack_offL]
  cases s.keyL with
  | none => rfl
  | some key =>
    cases s.offL with
    | none => rfl
    | some off =>
      simp only [State.issueNext, inContract]
      split <;> rfl

theorem barRestoreDone (h : sizeRemainder x = sizeRemainder y) (hx : x ≠ 0#32) (hy : y ≠ 0#32) :
    SameAfter x y barRestoreDone := by
  intro s
  simp only [Machine.barRestoreDone, State.withRaw, State.latchBack_rawL]
  cases s.rawL with
  | none => rfl
  | some raw =>
    simp only [withBack_some (State.latchBack_backL s _), if_neg hx, if_neg hy, memoryResults, barSize32, h]
    split
    · rfl
    split
    · rfl
    · exact barUpperRead s

theorem barUpperDone (h : sizeRemainder x = sizeRemainder y) (u : Word) : SameAfter x y (barUpperDone u) := by
  intro s
  simp only [Machine.barUpperDone, State.withRaw, State.latchBack_rawL]
  cases s.rawL with
  | none => rfl
  | some raw =>
    simp only [withBack_some (State.latchBack_backL s _), memoryResults, barSize32, h]
    rfl

end SameAfter

/-- Settles O44: the restore's completion asks only whether the read-back is 0 and what its remainder is, the upper half's only the
latter. -/
theorem readBackTypeBitsAreIgnored : Obligations.ReadBackTypeBitsAreIgnored := by
  intro s slot x y h hx hy hf
  change exec _ (s.latchBack y) = onNext (State.latchBack · y) (exec _ (s.latchBack x))
  rcases hf with hf | hf
  · simp only [exec, execBarProbe, State.latchBack_fsm, hf]
    exact SameAfter.onDone (fun _ => .barRestoreDone h hx hy) s
  · simp only [exec, execBarProbe, State.latchBack_fsm, hf]
    exact SameAfter.onDone (.barUpperDone h) s

end Sys2Proof.Machine
end

section
/-! PROOFS. Runs of a probe (R140, R148): from its acceptance each answered transaction takes it to the next one, so the transactions come
in the order of its state machine. -/

namespace Sys2Proof.Machine

/-! ### From one transaction to the next -/

theorem ResultsKept.trans {s t u : State} (h : ResultsKept s t) (h' : ResultsKept t u) : ResultsKept s u :=
  ⟨h'.outcome.trans h.outcome, h'.err.trans h.err, h'.val0.trans h.val0, h'.val1.trans h.val1, h'.val2.trans h.val2,
    h'.val3.trans h.val3, h'.barKind.trans h.barKind, h'.barAddr.trans h.barAddr, h'.barSize.trans h.barSize,
    h'.barPf.trans h.barPf⟩

theorem Appends.append {s t u : State} {es es' : List Event} (h : Appends s t es) (h' : u.history = t.history ++ es') :
    Appends s u (es ++ es') :=
  h'.trans ((congrArg (· ++ es') h).trans (List.append_assoc ..))

/-- The states of the sequencer in which a probe waits for a transaction (R23, R133). -/
def probeStates : List Fsm := [.barRawRd, .barOnesWr, .barBackRd, .barRestoreWr, .barUpperRd]

theorem exec_barProbe_presentPending {s : State} {slot : Nat} (hf : s.fsm ∈ probeStates) (hc : s.completion = none) :
    exec (.barProbe slot) s = .next s.presentPending := by
  simp only [probeStates, List.mem_cons, List.not_mem_nil, or_false] at hf
  rcases hf with hf | hf | hf | hf | hf <;> simp only [exec, execBarProbe, hf]
  · exact onReadDone_none hc
  · exact onWriteDone_none hc
  · exact onReadDone_none hc
  · exact onWriteDone_none hc
  · exact onReadDone_none hc

/-- In a run from `s` of the probe of `slot` with `key`, the work of a step starts from `u`: the sequencer is in `f`, the last of `n`
transactions completes with `v`, the trace has grown by `es`, and the inputs `rest` are still to come. -/
structure ProbeAnswered (s u : State) (slot : Nat) (key : Word) (f : Fsm) (v : Word) (n : Nat) (es : List Event)
    (rest : List Pins) : Prop where
  cmdL : ∃ w, u.cmdL = some w ∧ decode w = .ok (.barProbe slot)
  keyL : u.keyL = some key
  fsm : u.fsm = f
  probing : f ∈ probeStates
  completion : u.completion = some v
  issued : u.issued = s.issued + n
  inputs : u.inputs = rest
  history : Appends s u es
  results : ResultsKept s u
  reaches : ∀ {k t t'}, exec (.barProbe slot) u = .next t → t.Reaches k t' → s.Reaches (k + 2 * n) t'

theorem ne_idle_of_mem_probeStates {f : Fsm} (h : f ∈ probeStates) : f ≠ .idle := by
  rintro rfl
  simp [probeStates] at h

/-- An accepted probe gets to the completion of its raw read in the second step. -/
theorem probe_rawRead_answered {s : State} {slot : Nat} {p0 p1 : Pins} {rest : List Pins} {key b v : Word} (hs : s.Ready)
    (hslot : slot ≤ 5) (hi : s.inputs = p0 :: p1 :: rest)
    (hp : Presents p0 (0x60#32 ||| BitVec.ofNat 32 slot <<< 8) key b) (ha : Answers p1 s.issued v) :
    ∃ u, ProbeAnswered s u slot key .barRawRd v 1 [.issued (.read key (barOffset slot))] rest ∧
      u.offL = some (barOffset slot) := by
  obtain ⟨hrst, hread, hvalid, hcmd, rfl, -⟩ := hp
  have hd : decode p0.cmd = .ok (.barProbe slot) :=
    hcmd ▸ decodeOfEncodeIsTheCommand (.barProbe slot) (decide_eq_true (by omega))
  have h1 : step s = .next ((s.begun none).probeAccepted slot) :=
    (step_presented hs hi hread hrst hvalid hd).trans (exec_barProbe_accepted hs.1 hslot)
  obtain ⟨h2, hv⟩ := step_answered (s := (s.begun none).probeAccepted slot) (w := p0.cmd) (rest := rest) rfl nofun
    (by simp [State.probeAccepted, hi]) hd rfl (by simp [State.probeAccepted, hi]) ha rfl
  refine ⟨_, ⟨⟨p0.cmd, ?_, hd⟩, ?_, rfl, by decide, hv, rfl, ?_, ?_, ⟨rfl, rfl, rfl, rfl, rfl, rfl, rfl, rfl, rfl, rfl⟩,
    fun ht hr => reaches_succ h1 (reaches_succ (h2.trans ht) hr)⟩, rfl⟩
  all_goals simp [Appends, State.probeAccepted, hi]

/-- A probe that makes `x` its next transaction gets to the completion of `x` in the second step from there. -/
theorem ProbeAnswered.next {s u t : State} {slot : Nat} {key v v' : Word} {f f' : Fsm} {n : Nat} {es : List Event}
    {q p : Pins} {rest : List Pins} {e : Event} {x : Transaction}
    (h : ProbeAnswered s u slot key f v n es (q :: p :: rest)) (hx : exec (.barProbe slot) u = .next t)
    (ht : Prepares u t e x) (hf' : f' ∈ probeStates) (hf : t.fsm = f') (hb : t.busy = true)
    (hq : Passes q) (ha : Answers p (s.issued + n) v') :
    ∃ u', ProbeAnswered s u' slot key f' v' (n + 1) (es ++ [e, .issued x]) rest ∧ LatchesKept t u' := by
  subst hf
  have hn := ne_idle_of_mem_probeStates hf'
  obtain ⟨hin, hres, -, hlatched, -⟩ := accessingCommandsKeepTheRest (.barProbe slot) u t rfl hx
  obtain ⟨hcmd, hkey⟩ := hlatched (h.fsm ▸ ne_idle_of_mem_probeStates h.probing)
  obtain ⟨w, hw, hd⟩ := h.cmdL
  have hi : t.inputs = q :: p :: rest := hin.inputs.trans h.inputs
  have hw' : t.cmdL = some w := hcmd.trans hw
  have hiss : t.issued = s.issued + n := ht.issued.trans h.issued
  have h1 : step t = .next ((t.begun none).present x) := by
    rw [step_latched hb hn hi hq.read hq.rst hw' hd,
      exec_barProbe_presentPending (s := t.begun none) hf' (completion_of_port_none ht.port),
      presentPending_eq_present (s := t.begun none) ht.port ht.pending]
  obtain ⟨h2, hv⟩ := step_answered (s := (t.begun none).present x) (rest := rest) hb hn hw' hd rfl
    (by simp [hi]) ha (by simp [hiss])
  refine ⟨((t.begun none).present x).begun none, ?answered, by constructor <;> simp⟩
  case answered =>
    exact
      { cmdL := ⟨w, by simp [hw'], hd⟩
        keyL := by simp [hkey, h.keyL]
        fsm := by simp
        probing := hf'
        completion := hv
        issued := by simp [hiss, Nat.add_assoc]
        inputs := by simp [hi]
        history := h.history.append (by simp [ht.history])
        results := (h.results.trans (hres hb)).trans (by constructor <;> simp)
        reaches := fun {k _ _} ht hr => by
          have hk : k + 2 * (n + 1) = k + 1 + 1 + 2 * n := by omega
          rw [hk]
          exact h.reaches hx (reaches_succ h1 (reaches_succ (h2.trans ht) hr)) }

/-- Settles O41: both branches end with the raw read. -/
theorem probeWithoutMemoryTypeMakesOneRead : Obligations.ProbeWithoutMemoryTypeMakesOneRead := by
  intro s slot p0 p1 rest key b v hs hslot hi hp ha hv
  obtain ⟨u, hu, hoff⟩ := probe_rawRead_answered hs hslot hi hp ha
  have hbar := barOffset_toNat hslot
  obtain ⟨t, ht, -, -, -, -, -, -, hio, hreserved, -⟩ := barRawReadDecides u slot v key (barOffset slot) hu.fsm
    hu.completion hu.keyL hoff (by omega) (by omega)
  cases h0 : v.getLsbD 0 with
  | true =>
    obtain ⟨hdone, hfin⟩ := hio h0
    exact ⟨t, _, hu.reaches ht rfl, hbar, hu.history.append hdone.history, fun _ => hfin, nofun⟩
  | false =>
    obtain ⟨hdone, hfin⟩ := hreserved h0 (hv.resolve_left (Bool.eq_false_iff.mp h0))
    exact ⟨t, _, hu.reaches ht rfl, hbar, hu.history.append hdone.history, nofun, fun _ => hfin⟩

/-! ### A memory BAR -/

section
variable {s u : State} {slot : Nat} {key raw back v v' : Word} {n : Nat} {es : List Event} {q p : Pins} {rest : List Pins}

/-- A probe of a memory BAR goes on with the all-ones write (R137). -/
theorem ProbeAnswered.onesWrite (h : ProbeAnswered s u slot key .barRawRd raw n es (q :: p :: rest)) (hslot : slot ≤ 5)
    (ho : u.offL = some (barOffset slot)) (h0 : raw.getLsbD 0 = false) (h1 : raw.getLsbD 1 = false) (hq : Passes q)
    (ha : Answers p (s.issued + n) v) :
    ∃ u', ProbeAnswered s u' slot key .barOnesWr v (n + 1)
        (es ++ [.readDone raw, .issued (.write key (barOffset slot) allOnes)]) rest ∧
      u'.offL = some (barOffset slot) ∧ u'.rawL = some raw := by
  have hbar := barOffset_toNat hslot
  obtain ⟨t, ht, hraw, -, -, hoff, -, -, -, -, hmemory⟩ := barRawReadDecides u slot raw key _ h.fsm h.completion h.keyL ho
    (by omega) (by omega)
  obtain ⟨hf, hb, -, hprep⟩ := hmemory h0 h1
  obtain ⟨u', hu', hl⟩ := h.next ht hprep (by decide) hf hb hq ha
  exact ⟨u', hu', hl.offL.trans (hoff.trans ho), hl.rawL.trans hraw⟩

/-- After the all-ones write the probe goes on with the read-back (R138). -/
theorem ProbeAnswered.readBack (h : ProbeAnswered s u slot key .barOnesWr v n es (q :: p :: rest)) (hslot : slot ≤ 5)
    (ho : u.offL = some (barOffset slot)) (hr : u.rawL = some raw) (hq : Passes q) (ha : Answers p (s.issued + n) v') :
    ∃ u', ProbeAnswered s u' slot key .barBackRd v' (n + 1)
        (es ++ [.writeDone, .issued (.read key (barOffset slot))]) rest ∧
      u'.offL = some (barOffset slot) ∧ u'.rawL = some raw := by
  have hbar := barOffset_toNat hslot
  obtain ⟨hreadBack, -⟩ := barReadBackThenRestore u slot v key _ h.completion h.keyL ho (by omega) (by omega)
  obtain ⟨t, ht, hf, hb, hprep, hkept, -⟩ := hreadBack h.fsm
  obtain ⟨u', hu', hl⟩ := h.next ht hprep (by decide) hf hb hq ha
  exact ⟨u', hu', hl.offL.trans (hkept.offL.trans ho), hl.rawL.trans (hkept.rawL.trans hr)⟩

/-- After the read-back the probe goes on with the write of the raw value (R139). -/
theorem ProbeAnswered.restore (h : ProbeAnswered s u slot key .barBackRd back n es (q :: p :: rest)) (hslot : slot ≤ 5)
    (ho : u.offL = some (barOffset slot)) (hr : u.rawL = some raw) (hq : Passes q) (ha : Answers p (s.issued + n) v) :
    ∃ u', ProbeAnswered s u' slot key .barRestoreWr v (n + 1)
        (es ++ [.readDone back, .issued (.write key (barOffset slot) raw)]) rest ∧
      u'.offL = some (barOffset slot) ∧ u'.rawL = some raw ∧ u'.backL = some back := by
  have hbar := barOffset_toNat hslot
  obtain ⟨-, hrestore⟩ := barReadBackThenRestore u slot back key _ h.completion h.keyL ho (by omega) (by omega)
  obtain ⟨t, ht, hf, hb, hprep, hback, hraw, -, -, hoff, -⟩ := hrestore raw h.fsm hr
  obtain ⟨u', hu', hl⟩ := h.next ht hprep (by decide) hf hb hq ha
  exact ⟨u', hu', hl.offL.trans (hoff.trans ho), hl.rawL.trans (hraw.trans hr), hl.backL.trans hback⟩

/-- After the restoring write a probe of a 64-bit BAR with a size goes on with the upper half (R143). -/
theorem ProbeAnswered.upperRead (h : ProbeAnswered s u slot key .barRestoreWr v n es (q :: p :: rest)) (hslot : slot ≤ 5)
    (ho : u.offL = some (barOffset slot)) (hr : u.rawL = some raw) (hb : u.backL = some back) (hz : 16 ≤ back.toNat)
    (ht : memoryType raw ≠ 0b00#2) (hq : Passes q) (ha : Answers p (s.issued + n) v') :
    ∃ u', ProbeAnswered s u' slot key .barUpperRd v' (n + 1)
        (es ++ [.writeDone, .issued (.read key (barOffset slot + 4#12))]) rest ∧
      u'.rawL = some raw ∧ u'.backL = some back := by
  have hbar := barOffset_toNat hslot
  obtain ⟨t, hx, -, -, -, hraw, hback, -, -, -, hupper⟩ := barRestoreDecides u slot v key raw back _ h.fsm h.completion
    h.keyL ho (by omega) (by omega) hr hb
  obtain ⟨hf, hbusy, -, hprep, -⟩ := hupper hz ht
  obtain ⟨u', hu', hl⟩ := h.next hx hprep (by decide) hf hbusy hq ha
  exact ⟨u', hu', hl.rawL.trans (hraw.trans hr), hl.backL.trans (hback.trans hb)⟩

end

/-- A probe of a memory BAR gets to the acknowledgement of the restoring write in the eighth step. -/
theorem probe_restore_answered {s : State} {slot : Nat} {p0 p1 q1 p2 q2 p3 q3 p4 : Pins} {rest : List Pins}
    {key b raw w back x : Word} (hs : s.Ready) (hslot : slot ≤ 5)
    (hi : s.inputs = p0 :: p1 :: q1 :: p2 :: q2 :: p3 :: q3 :: p4 :: rest)
    (hp : Presents p0 (0x60#32 ||| BitVec.ofNat 32 slot <<< 8) key b) (ha1 : Answers p1 s.issued raw) (hq1 : Passes q1)
    (ha2 : Answers p2 (s.issued + 1) w) (hq2 : Passes q2) (ha3 : Answers p3 (s.issued + 2) back) (hq3 : Passes q3)
    (ha4 : Answers p4 (s.issued + 3) x) (h0 : raw.getLsbD 0 = false) (h1 : raw.getLsbD 1 = false) :
    ∃ u, ProbeAnswered s u slot key .barRestoreWr x 4
        [.issued (.read key (barOffset slot)), .readDone raw, .issued (.write key (barOffset slot) allOnes), .writeDone,
          .issued (.read key (barOffset slot)), .readDone back, .issued (.write key (barOffset slot) raw)] rest ∧
      u.offL = some (barOffset slot) ∧ u.rawL = some raw ∧ u.backL = some back := by
  obtain ⟨u1, hu1, ho1⟩ := probe_rawRead_answered hs hslot hi hp ha1
  obtain ⟨u2, hu2, ho2, hr2⟩ := hu1.onesWrite hslot ho1 h0 h1 hq1 ha2
  obtain ⟨u3, hu3, ho3, hr3⟩ := hu2.readBack hslot ho2 hr2 hq2 ha3
  exact hu3.restore hslot ho3 hr3 hq3 ha4

/-- Settles O42: whatever the read-back decides (R141), the transaction that completes before it is the restoring write. -/
theorem memoryProbeRestoresOnEveryPath : Obligations.MemoryProbeRestoresOnEveryPath := by
  intro s slot p0 p1 q1 p2 q2 p3 q3 p4 rest key b raw w back x hs hslot hi hp ha1 hq1 ha2 hq2 ha3 hq3 ha4 h0 h1
  obtain ⟨u, hu, ho, hr, hb⟩ := probe_restore_answered hs hslot hi hp ha1 hq1 ha2 hq2 ha3 hq3 ha4 h0 h1
  have hbar := barOffset_toNat hslot
  obtain ⟨t, ht, hin, -, -, -, -, habsent, hnoSize, hmemory32, hupper⟩ := barRestoreDecides u slot x key raw back _ hu.fsm
    hu.completion hu.keyL ho (by omega) (by omega) hr hb
  have htype : raw.extractLsb' 1 2 = 0#2 ↔ raw.getLsbD 2 = false :=
    (memoryType_eq_iff raw 0#2).trans (and_iff_right h1)
  have htype' (h2 : raw.getLsbD 2 = true) : raw.extractLsb' 1 2 ≠ 0#2 := mt htype.mp (by rw [h2]; decide)
  have hdone : t.history = u.history ++ [.writeDone] := by
    by_cases hz : 16 ≤ back.toNat
    · cases h2 : raw.getLsbD 2 with
      | false =>
        obtain ⟨hdone, -⟩ := hmemory32 hz (htype.mpr h2)
        exact hdone.history
      | true =>
        obtain ⟨-, -, -, hprep, -⟩ := hupper hz (htype' h2)
        exact hprep.history
    · by_cases hb0 : back = 0#32
      · obtain ⟨hdone, -⟩ := habsent hb0
        exact hdone.history
      · obtain ⟨hdone, -⟩ := hnoSize hb0 (not_le.mp hz)
        exact hdone.history
  refine ⟨t, _, hu.reaches ht rfl, hbar, hin.inputs.trans hu.inputs, hu.history.append hdone, fun hb0 => ?absent,
    fun hb0 hz => ?noSize, fun hz h2 => ?memory32, fun hz h2 => ?memory64⟩
  case absent =>
    obtain ⟨-, hfin, -⟩ := habsent hb0
    exact hfin
  case noSize =>
    obtain ⟨-, hfin, -⟩ := hnoSize hb0 hz
    exact hfin
  case memory32 =>
    obtain ⟨-, -, hfin⟩ := hmemory32 hz (htype.mpr h2)
    exact hfin
  case memory64 =>
    obtain ⟨hf, hbusy, -, hprep, hkept⟩ := hupper hz (htype' h2)
    exact ⟨hf, hbusy, hu.results.trans hkept, _, upperOffset_toNat hslot, hprep.port, hprep.pending⟩

/-- Settles O43: after the restoring write the upper half is read, and its completion ends the probe. -/
theorem probe64ReadsTheUpperHalfLast : Obligations.Probe64ReadsTheUpperHalfLast := by
  intro s slot p0 p1 q1 p2 q2 p3 q3 p4 q4 p5 rest key b raw w back x u hs hslot hi hp ha1 hq1 ha2 hq2 ha3 hq3 ha4 hq4 ha5
    h0 htype hz
  obtain ⟨h1, -⟩ := (memoryType_eq_iff raw 2#2).mp htype
  obtain ⟨u4, hu4, ho, hr, hb⟩ := probe_restore_answered hs hslot hi hp ha1 hq1 ha2 hq2 ha3 hq3 ha4 h0 h1
  obtain ⟨u5, hu5, hr5, hb5⟩ := hu4.upperRead hslot ho hr hb hz (by rw [memoryType, htype]; decide) hq4 ha5
  obtain ⟨k, h4, hk32, hset, hleast, t, ht, hfin, hdone, -⟩ :=
    barUpperHalfCompletes u5 slot u raw back hu5.fsm hu5.completion hr5 hb5 hz
  exact ⟨t, _, _, k, hu5.reaches ht rfl, barOffset_toNat hslot, upperOffset_toNat hslot,
    hu5.history.append hdone.history, h4, hk32, hset, hleast, hfin⟩

end Sys2Proof.Machine
end

section
/-! PROOFS. No condition is fatal: an unlisted word completes as an error, a transaction without its completion is waited for, and from a
state that meets the invariant only the host and the collaborator can stop a step (R46, R51, R153, R154, R167). -/

namespace Sys2Proof.Machine

/-! ### A word that is not listed -/

/-- Every row of the opcode map takes listed words only. -/
theorem listed_of_decode_ok {w : Word} {i : Instr} (h : decode w = .ok i) : Listed w := by
  obtain ⟨r, hr, hs, -⟩ := decode_ok h
  have hw := OpcodeRow.selects_iff.mp hs
  rcases mem_opcodeRows.mp hr with ⟨q, hq, rfl⟩ | rfl | rfl | rfl
  · exact .inl (List.mem_map.mpr ⟨q, hq, ((and_ones w).symm.trans hw).symm⟩)
  · exact .inr (.inl hw)
  · exact .inr (.inr (.inl hw))
  · exact .inr (.inr (.inr hw))

theorem decode_error_of_not_listed {w : Word} (h : ¬ Listed w) : ∃ e, decode w = .error e := by
  cases hd : decode w with
  | ok i => exact absurd (listed_of_decode_ok hd) h
  | error e => exact ⟨e, rfl⟩

/-- A ready machine whose next inputs present an illegal word completes with ILLEGAL_COMMAND (R154). -/
theorem step_illegal {s : State} {p : Pins} {rest : List Pins} {e : Illegal} (hs : s.Ready) (hi : s.inputs = p :: rest)
    (hr : p.read = none) (hrst : p.rst = false) (hc : p.cmdValid = true) (hd : decode p.cmd = .error e) :
    step s = .next ((s.begun none).finish .error 7#4 {}) := by
  obtain ⟨hf, hb⟩ := hs
  rw [step_eq_sampled hi hr]
  simp [sampledWork, presentedWork, hf, hb, hi, hrst, hc, hd, perform, State.rejectCommand, State.raiseError, errorCode]

/-- Settles O2: no row takes the word, and its completion touches nothing but the results. -/
theorem unlistedWordsCompleteAsIllegal : Obligations.UnlistedWordsCompleteAsIllegal := by
  rintro s p rest w a b hs hi ⟨hrst, hread, hvalid, rfl, -, -⟩ hw
  obtain ⟨e, hd⟩ := decode_error_of_not_listed hw
  exact ⟨_, step_illegal hs hi hread hrst hvalid hd, finish_finished .., ⟨rfl, rfl, rfl, rfl, rfl⟩, ⟨rfl, rfl, rfl, rfl⟩,
    by simp [hi]⟩

/-! ### Waiting -/

/-- A transaction is outstanding only while a command runs. -/
theorem State.Sequenced.not_idle_of_port {s : State} (hs : s.Sequenced) (hp : s.port.isSome = true) : s.fsm ≠ .idle := by
  intro hf
  simp [((sequenced_idle hf).mp hs).1] at hp

theorem presentPending_of_port {s : State} (hp : s.port.isSome = true) : s.presentPending = s := by
  rcases presentPending_cases s with ⟨he, -⟩ | ⟨x, hn, -⟩
  · exact he
  · simp [hn] at hp

/-- The completion of another transaction completes nothing (R169; log entry 3). -/
theorem completion_eq_none {s : State} (h : ∀ c, s.pins.done = some c → c.number + 1 ≠ s.issued) : s.completion = none := by
  rw [Option.eq_none_iff_forall_ne_some]
  intro v hv
  obtain ⟨-, n, hd, hn⟩ := completion_eq_some.mp hv
  exact h _ hd hn

/-- Settles O12: the running command finds no completion, and the port is taken. -/
theorem waitingKeepsEverything : Obligations.WaitingKeepsEverything := by
  intro s p rest hs hp hi hrst hr hdone
  have hf := hs.sequenced.not_idle_of_port hp
  obtain ⟨w, i, hw, hd, -⟩ := hs.sequenced.latched hf
  have hc : (s.begun none).completion = none := completion_eq_none (by simpa [hi] using hdone)
  calc step s = exec i (s.begun none) := step_latched (hs.busy.mpr hf) hf hi hr hrst hw hd
    _ = .next (s.begun none).presentPending :=
      exec_latched_presentPending (begun_sequenced hs.sequenced none) hf hw hd hc
    _ = .next (s.begun none) := by rw [presentPending_of_port (s := s.begun none) hp]
    _ = _ := by rw [begun_none hi]

/-! ### Every step answers -/

/-- The host's read stops a step only when it finds ⊥ (R15). -/
theorem serveRead_error {s : State} {f : Fault} (h : s.serveRead = .error f) : ∃ r, f = .readOfBottom r := by
  unfold State.serveRead at h
  split at h
  · cases h
  · split at h
    · cases h
    · exact ⟨_, (Except.error.inj h).symm⟩

/-- From a state that meets the invariant a step answers a next state, stalls, or fails the host's read. -/
theorem step_answers_or_stops {s : State} (hs : s.Inv) :
    (∃ t, step s = .next t) ∨ step s = .fault .stalled ∨ ∃ r, step s = .fault (.readOfBottom r) := by
  unfold step nextWork
  split
  · exact .inr (.inl rfl)
  · split
    · obtain ⟨r, rfl⟩ := serveRead_error ‹_›
      exact .inr (.inr ⟨r, rfl⟩)
    · obtain ⟨d, rfl⟩ := serveRead_ok ‹_›
      exact .inl (sampledWork_goes (begun_inv hs d))

/-- Settles O56: the step's work always goes on, so only a missing input or the host's read stops it. -/
theorem noConditionIsFatal : Obligations.NoConditionIsFatal := by
  intro s hs
  refine ⟨fun p rest hi hr => ?answers, ?stops⟩
  case answers =>
    rw [step_eq_sampled hi hr]
    exact sampledWork_goes (begun_inv hs none)
  case stops =>
    rcases step_answers_or_stops hs with ⟨t, ht⟩ | ht | ⟨r, ht⟩ <;> rw [ht]
    · exact ⟨nofun, nofun⟩
    · exact ⟨fun f hf => .inl (Host.Outcome.fault.inj hf).symm, nofun⟩
    · exact ⟨fun f hf => .inr ⟨r, (Host.Outcome.fault.inj hf).symm⟩, nofun⟩

end Sys2Proof.Machine
end

section
/-! PROOFS. The reset input: it comes before everything else a step could do (R169, R170). -/

namespace Sys2Proof.Machine

/-- A step with rst = 1 does nothing but the reset, whatever is in progress or presented. -/
theorem step_reset {s : State} {p : Pins} {rest : List Pins} (hi : s.inputs = p :: rest) (hr : p.read = none)
    (hrst : p.rst = true) : step s = .next (s.begun none).applyReset := by
  rw [step_eq_sampled hi hr]
  simp [sampledWork, hi, hrst, perform]

/-- Settles O8: the step is `State.applyReset` on the sampled state. -/
theorem resetInputRestoresTheResetValues : Obligations.ResetInputRestoresTheResetValues := by
  intro s p rest hi hrst hr
  exact ⟨_, step_reset hi hr hrst, applyReset_finished _, rfl, rfl, rfl, rfl, rfl, rfl, rfl, rfl, rfl, by simp [hi]⟩

end Sys2Proof.Machine
end

section
/-! PROOFS. The host's read is seen by `State.serveRead` alone: the work of a step neither looks at the read signal nor at what the host
got, and it keeps both (R22, R32, R182; log entry 5). -/

namespace Sys2Proof.Machine

/-! ### A change of the next state goes through the operations -/

section
variable (f : State → State) (s : State)

theorem onNext_inContract (x : Transaction) : onNext f (inContract x s) = inContract x (f s) := by
  unfold inContract
  split <;> rfl

theorem onNext_withKey (k : Word → StepOutcome) : onNext f (s.withKey k) = s.withKey fun key => onNext f (k key) := by
  unfold State.withKey
  split <;> rfl

theorem onNext_withAccess (k : Word → Off → StepOutcome) :
    onNext f (s.withAccess k) = s.withAccess fun key off => onNext f (k key off) := by
  unfold State.withAccess
  rw [onNext_withKey]
  congr 1
  funext key
  split <;> rfl

theorem onNext_withRaw (k : Word → StepOutcome) : onNext f (s.withRaw k) = s.withRaw fun raw => onNext f (k raw) := by
  unfold State.withRaw
  split <;> rfl

theorem onNext_withBack (k : Word → StepOutcome) : onNext f (s.withBack k) = s.withBack fun back => onNext f (k back) := by
  unfold State.withBack
  split <;> rfl

end

/-! ### The state after a host read -/

/-- `s` in a step in which the host reads the register `r` and gets `v`. -/
def State.withRead (r : HostReg) (v : Long) (s : State) : State :=
  { s with pins := { s.pins with read := some r }, hostData := some v }

/-- A part of a step does the same whatever the host reads and gets. -/
def ReadFree (k : State → StepOutcome) : Prop :=
  ∀ r v s, k (s.withRead r v) = onNext (State.withRead r v) (k s)

section
variable (r : HostReg) (v : Long) (s : State)

@[simp] theorem State.withRead_fsm : (s.withRead r v).fsm = s.fsm := rfl
@[simp] theorem State.withRead_cmdL : (s.withRead r v).cmdL = s.cmdL := rfl
@[simp] theorem State.withRead_port : (s.withRead r v).port = s.port := rfl
@[simp] theorem State.withRead_pending : (s.withRead r v).pending = s.pending := rfl
@[simp] theorem State.withRead_cmd : (s.withRead r v).pins.cmd = s.pins.cmd := rfl
@[simp] theorem State.withRead_completion : (s.withRead r v).completion = s.completion := rfl

theorem presentPending_withRead : (s.withRead r v).presentPending = s.presentPending.withRead r v := by
  simp only [State.presentPending, State.withRead_port, State.withRead_pending]
  cases s.port <;> cases s.pending <;> rfl

end

namespace ReadFree

/-! ### The shapes of a part of a step -/

/-- A choice whose condition the host's read does not touch. -/
theorem ite {c : State → Prop} {_ : DecidablePred c} {k k' : State → StepOutcome} (hk : ReadFree k) (hk' : ReadFree k')
    (hc : ∀ r v s, c (s.withRead r v) ↔ c s := by exact fun _ _ _ => Iff.rfl) :
    ReadFree fun s => if c s then k s else k' s := by
  intro r v s
  simp only [hc r v s, hk r v s, hk' r v s, apply_ite (onNext _)]

/-- A continuation on a completion, which the trace records as `e v`. -/
theorem onDone {e : Word → Event} {k : Word → State → StepOutcome} (hk : ∀ v, ReadFree (k v)) :
    ReadFree fun s => s.onDone fun v => k v (s.retire (e v)) := by
  intro r v s
  simp only [State.onDone, State.withRead_completion, presentPending_withRead]
  cases s.completion with
  | none => rfl
  | some w => exact hk w r v (s.retire (e w))

theorem onReadDone {k : Word → State → StepOutcome} (hk : ∀ v, ReadFree (k v)) : ReadFree (·.onReadDone k) :=
  onDone hk

theorem onWriteDone {k : State → StepOutcome} (hk : ReadFree k) : ReadFree (·.onWriteDone k) :=
  onDone fun _ => hk

theorem acceptRead (off : Off) (f : Fsm) : ReadFree (·.acceptRead off f) := fun r v s =>
  (onNext_inContract (State.withRead r v) (((s.latchCommand off).goto f).present (.read s.pins.opa off)) _).symm

/-! ### The continuations

With the change of the next state moved inwards, both sides of an equation compute to the same outcome. -/

theorem capPointerGate (w : Word) : ReadFree (capPointerGate w) := by
  intro r v s
  simp only [Machine.capPointerGate, State.issueNext, apply_ite (onNext _), onNext_withKey, onNext_inContract]
  rfl

theorem barRawDone (w : Word) : ReadFree (barRawDone w) := by
  intro r v s
  simp only [Machine.barRawDone, State.issueNext, apply_ite (onNext _), onNext_withAccess, onNext_inContract]
  rfl

theorem barOnesDone : ReadFree barOnesDone := by
  intro r v s
  simp only [Machine.barOnesDone, State.issueNext, onNext_withAccess, onNext_inContract]
  rfl

theorem barBackDone (w : Word) : ReadFree (barBackDone w) := by
  intro r v s
  simp only [Machine.barBackDone, State.issueNext, onNext_withRaw, onNext_withAccess, onNext_inContract]
  rfl

theorem barRestoreDone : ReadFree barRestoreDone := by
  intro r v s
  simp only [Machine.barRestoreDone, barUpperRead, State.issueNext, apply_ite (onNext _), onNext_withRaw, onNext_withBack,
    onNext_withAccess, onNext_inContract]
  rfl

theorem barUpperDone (w : Word) : ReadFree (barUpperDone w) := by
  intro r v s
  simp only [Machine.barUpperDone, onNext_withRaw, onNext_withBack]
  rfl

/-! ### The commands -/

theorem headerRead {off : Off} {complete : Word → State → StepOutcome} (hc : ∀ v, ReadFree (complete v)) :
    ReadFree (headerRead off complete) := by
  intro r v s
  simp only [Machine.headerRead, State.withRead_fsm]
  cases s.fsm with
  | idle => exact acceptRead _ _ r v s
  | hdrRd0 => exact onReadDone hc r v s
  | _ => rfl

theorem execCfgCapPointer : ReadFree execCfgCapPointer := by
  intro r v s
  simp only [Machine.execCfgCapPointer, State.withRead_fsm]
  cases s.fsm with
  | idle => exact acceptRead _ _ r v s
  | hdrRd0 => exact onReadDone capPointerGate r v s
  | hdrRd1 => exact onReadDone (fun _ _ _ _ => rfl) r v s
  | _ => rfl

theorem barAccept (slot : Nat) : ReadFree (barAccept slot) :=
  ite (fun _ _ _ => rfl) (acceptRead _ _)

theorem execBarProbe (slot : Nat) : ReadFree (execBarProbe slot) := by
  intro r v s
  simp only [Machine.execBarProbe, State.withRead_fsm]
  cases s.fsm with
  | idle => exact barAccept slot r v s
  | barRawRd => exact onReadDone barRawDone r v s
  | barOnesWr => exact onWriteDone barOnesDone r v s
  | barBackRd => exact onReadDone barBackDone r v s
  | barRestoreWr => exact onWriteDone barRestoreDone r v s
  | barUpperRd => exact onReadDone barUpperDone r v s
  | hdrRd0 | hdrRd1 => rfl

/-- Every command: one without accesses completes from its operands alone. -/
theorem exec (i : Instr) : ReadFree (exec i) := by
  cases i
  case addrEncode | bits32 | bits16 | advFunction | advDevice | advBus | advSegment =>
    exact ite (fun _ _ _ => rfl) fun _ _ _ => rfl
  case cfgIdentity | cfgStatus | cfgRevClass | cfgHeaderType | cfgMultifunction =>
    exact headerRead fun _ _ _ _ => rfl
  case cfgEndpoint => exact headerRead fun _ => ite (fun _ _ _ => rfl) fun _ _ _ => rfl
  case cfgCapPointer => exact execCfgCapPointer
  case barProbe slot => exact execBarProbe slot
  all_goals exact fun _ _ _ => rfl

/-! ### The work of a step -/

theorem latchedWork : ReadFree fun s => perform (latchedWork s) := by
  intro r v s
  simp only [Machine.latchedWork, State.withRead_cmdL]
  cases s.cmdL with
  | none => rfl
  | some w =>
    dsimp only
    cases decode w with
    | ok i => exact exec i r v s
    | error e => rfl

theorem presentedWork : ReadFree fun s => perform (presentedWork s) := by
  simp only [Machine.presentedWork, apply_ite perform]
  refine ite (fun r v s => ?_) fun _ _ _ => rfl
  rw [State.withRead_cmd]
  cases decode s.pins.cmd with
  | ok i => exact exec i r v s
  | error e => rfl

theorem sampledWork : ReadFree fun s => perform (sampledWork s) := by
  simp only [Machine.sampledWork, apply_ite perform]
  exact ite (fun _ _ _ => rfl) (ite (fun _ _ _ => rfl) (ite latchedWork presentedWork))

end ReadFree

/-- Settles O17: with and without the read the step does the same sampled work, and only the state it starts from shows the read. -/
theorem hostReadsDoNotInfluenceTheStep : Obligations.HostReadsDoNotInfluenceTheStep := by
  intro s p rest r v hr hv
  calc step { s with inputs := { p with read := some r } :: rest }
    _ = perform (sampledWork ((State.begun { s with inputs := p :: rest } none).withRead r v)) :=
      step_eq_sampled_of_read rfl rfl hv
    _ = onNext (State.withRead r v) (perform (sampledWork (State.begun { s with inputs := p :: rest } none))) :=
      ReadFree.sampledWork r v _
    _ = onNext (State.withRead r v) (step { s with inputs := p :: rest }) := by rw [step_eq_sampled rfl hr]

end Sys2Proof.Machine
end
